-- ==== Sys2Proof/Word.lean ====
section
/-! DEFINITION. The word types of the block (spec 00_scope.md R4-R10: every value is unsigned). -/

namespace Sys2Proof

/-- A byte on the wire, in the scratch buffer or in a receive queue (R10, R62). -/
abbrev Byte := BitVec 8

/-- A host command word (R90). -/
abbrev HostWord := BitVec 32

/-- A DLCI, 0..63 (R4, R81): the index of a registry entry. -/
abbrev Dlci := BitVec 6

/-- An opaque receive-queue handle (R9). -/
abbrev Handle := BitVec 16

/-- A payload length or a payload byte count: 15 bits (R27). -/
abbrev Len15 := BitVec 15

/-- A wrapping counter, CNT_W = 32 bits (R6). -/
abbrev Counter := BitVec 32

/-- A channel's maximum payload per frame: 16 bits (R32). -/
abbrev Mtu := BitVec 16

end Sys2Proof
end

