-- ==== Sys2Proof/Machine/Crc.lean ====
section
/-! DEFINITION. The CRC-8 engine, a pure function unit (spec 40_crc.md R120-R125). -/

namespace Sys2Proof.Machine

/-! The table `T` of R120, one row per high nibble. PRESUMED (log 15): the spec marks its contents as general knowledge. -/

/-- Rows 0x to 7x of `T`. -/
def crcRowsLow : List (List Byte) :=
  [[0x00, 0x91, 0xE3, 0x72, 0x07, 0x96, 0xE4, 0x75, 0x0E, 0x9F, 0xED, 0x7C, 0x09, 0x98, 0xEA, 0x7B],
   [0x1C, 0x8D, 0xFF, 0x6E, 0x1B, 0x8A, 0xF8, 0x69, 0x12, 0x83, 0xF1, 0x60, 0x15, 0x84, 0xF6, 0x67],
   [0x38, 0xA9, 0xDB, 0x4A, 0x3F, 0xAE, 0xDC, 0x4D, 0x36, 0xA7, 0xD5, 0x44, 0x31, 0xA0, 0xD2, 0x43],
   [0x24, 0xB5, 0xC7, 0x56, 0x23, 0xB2, 0xC0, 0x51, 0x2A, 0xBB, 0xC9, 0x58, 0x2D, 0xBC, 0xCE, 0x5F],
   [0x70, 0xE1, 0x93, 0x02, 0x77, 0xE6, 0x94, 0x05, 0x7E, 0xEF, 0x9D, 0x0C, 0x79, 0xE8, 0x9A, 0x0B],
   [0x6C, 0xFD, 0x8F, 0x1E, 0x6B, 0xFA, 0x88, 0x19, 0x62, 0xF3, 0x81, 0x10, 0x65, 0xF4, 0x86, 0x17],
   [0x48, 0xD9, 0xAB, 0x3A, 0x4F, 0xDE, 0xAC, 0x3D, 0x46, 0xD7, 0xA5, 0x34, 0x41, 0xD0, 0xA2, 0x33],
   [0x54, 0xC5, 0xB7, 0x26, 0x53, 0xC2, 0xB0, 0x21, 0x5A, 0xCB, 0xB9, 0x28, 0x5D, 0xCC, 0xBE, 0x2F]]

/-- Rows 8x to Fx of `T`. -/
def crcRowsHigh : List (List Byte) :=
  [[0xE0, 0x71, 0x03, 0x92, 0xE7, 0x76, 0x04, 0x95, 0xEE, 0x7F, 0x0D, 0x9C, 0xE9, 0x78, 0x0A, 0x9B],
   [0xFC, 0x6D, 0x1F, 0x8E, 0xFB, 0x6A, 0x18, 0x89, 0xF2, 0x63, 0x11, 0x80, 0xF5, 0x64, 0x16, 0x87],
   [0xD8, 0x49, 0x3B, 0xAA, 0xDF, 0x4E, 0x3C, 0xAD, 0xD6, 0x47, 0x35, 0xA4, 0xD1, 0x40, 0x32, 0xA3],
   [0xC4, 0x55, 0x27, 0xB6, 0xC3, 0x52, 0x20, 0xB1, 0xCA, 0x5B, 0x29, 0xB8, 0xCD, 0x5C, 0x2E, 0xBF],
   [0x90, 0x01, 0x73, 0xE2, 0x97, 0x06, 0x74, 0xE5, 0x9E, 0x0F, 0x7D, 0xEC, 0x99, 0x08, 0x7A, 0xEB],
   [0x8C, 0x1D, 0x6F, 0xFE, 0x8B, 0x1A, 0x68, 0xF9, 0x82, 0x13, 0x61, 0xF0, 0x85, 0x14, 0x66, 0xF7],
   [0xA8, 0x39, 0x4B, 0xDA, 0xAF, 0x3E, 0x4C, 0xDD, 0xA6, 0x37, 0x45, 0xD4, 0xA1, 0x30, 0x42, 0xD3],
   [0xB4, 0x25, 0x57, 0xC6, 0xB3, 0x22, 0x50, 0xC1, 0xBA, 0x2B, 0x59, 0xC8, 0xBD, 0x2C, 0x5E, 0xCF]]

/-- `T[i]`: the row is the high nibble of `i`, the column the low nibble (R120). -/
def crcT (i : Byte) : Byte :=
  ((crcRowsLow ++ crcRowsHigh).getD (i.toNat / 16) []).getD (i.toNat % 16) 0

/-- One bit of the generation of `T`: shift right, and XOR with the reflected polynomial 0xE0 if bit 0 was set (R120). -/
def crcShift (c : Byte) : Byte := if c.getLsbD 0 then (c >>> 1) ^^^ 0xE0#8 else c >>> 1

/-- `k` bits of the generation of `T` (R120: `T[i]` is `c8` from `c0 = i`). -/
def crcGenerate : Nat → Byte → Byte
  | 0, c => c
  | k + 1, c => crcGenerate k (crcShift c)

/-- The seed of every encode and decode path (R125). -/
def crcSeed : Byte := 0xFF#8

/-- The residue of a good frame (R124, R125). -/
def crcResidue : Byte := 0xCF#8

/-- `Upd(f, b) = T[f ^ b]` (R121). -/
def upd (f b : Byte) : Byte := crcT (f ^^^ b)

/-- `Fold(s, bytes)`: left fold of `Upd` (R122). -/
def crcFold (s : Byte) (bytes : List Byte) : Byte := bytes.foldl upd s

/-- `Compute(bytes)`: the FCS of a byte sequence, the complement of the fold (R123). -/
def crcCompute (bytes : List Byte) : Byte := ~~~ (crcFold crcSeed bytes)

/-- `Verify(bytes, r)`: folding the received FCS gives the residue (R124). -/
def crcVerify (bytes : List Byte) (r : Byte) : Bool := upd (crcFold crcSeed bytes) r == crcResidue

/-! The single-bit change that R127 speaks of. It is a change on the wire: the block itself never makes one, and where it
moves a frame boundary (R163, R164, R161) the receive FSM decides what follows. -/

/-- `b` with exactly bit `j` changed (R127; `j < 8`). -/
def flipBit (b : Byte) (j : Nat) : Byte := b ^^^ (1#8 <<< j)

/-- The sequence `x` with exactly bit `j` of its byte `i` changed (R127; `i < x.length`). -/
def flipAt : List Byte → Nat → Nat → List Byte
  | [], _, _ => []
  | b :: x, 0, j => flipBit b j :: x
  | b :: x, i + 1, j => b :: flipAt x i j

end Sys2Proof.Machine
end

