-- ==== Sys2Proof/Syntax.lean ====
section
/-! DEFINITION. The instructions of the block: one constructor per row of spec/opcode_table.json (R96). -/

namespace Sys2Proof

/-- A channel's frame type, the 1-bit field `mode` of the registry (R31) and of the host word (R90). -/
inductive Mode where
  /-- The FCS covers the header only. -/
  | uih
  /-- The FCS covers header and payload. -/
  | ui
  deriving DecidableEq, Repr

/-- The two opcode spaces of R96. A `FRAME_CTRL` instruction is the control byte of a received frame, whose P/F bit
(R82) is its operand; a `HOST_WORD` instruction is a host command word with the fields its operation uses (R90). -/
inductive Instr where
  -- FRAME_CTRL: control-byte frame types (R83)
  | ui (pf : Bool)
  | uih (pf : Bool)
  | sabm (pf : Bool)
  | ua (pf : Bool)
  | dm (pf : Bool)
  | disc (pf : Bool)
  | other (c : Byte)
  -- HOST_WORD: host operations (R91)
  | sendCmd (d : Dlci) (cr : Bool) (c : Byte)
  | sendData (d : Dlci) (cr : Bool)
  | cfgChan (d : Dlci) (mode : Mode) (mtu : Mtu)
  | bindQueue (d : Dlci) (bind : Bool) (h : Handle)
  | setConn (d : Dlci) (v : Bool)
  | readChan (d : Dlci)
  | readStatus
  | ackDisc0
  | setMuxEn (en : Bool)
  -- HOST_WORD: reserved op codes (R220)
  | reservedOp0
  | reservedOpA
  | reservedOpB
  | reservedOpC
  | reservedOpD
  | reservedOpE
  | reservedOpF
  deriving DecidableEq, Repr

end Sys2Proof
end

