-- ==== Sys2Proof/WellFormed.lean ====
section
/-! DEFINITION. Well-formed instructions: an `other` control byte is one whose type the table of R83 does not name
(R93(a), R96: OTHER is matched last). Every other operand is as wide as its field, so every value of it is encodable. -/

namespace Sys2Proof

/-- The byte, with its P/F bit masked out, is none of the six frame types of R83. -/
def namesNoFrameType (c : Byte) : Bool :=
  c &&& 0xEF#8 != 0x03#8 && c &&& 0xEF#8 != 0xEF#8 && c &&& 0xEF#8 != 0x2F#8 &&
  c &&& 0xEF#8 != 0x63#8 && c &&& 0xEF#8 != 0x0F#8 && c &&& 0xEF#8 != 0x43#8

/-- The instructions that some encoding stands for. -/
def Instr.wf : Instr → Bool
  | .ui _ => true
  | .uih _ => true
  | .sabm _ => true
  | .ua _ => true
  | .dm _ => true
  | .disc _ => true
  | .other c => namesNoFrameType c
  | .sendCmd _ _ _ => true
  | .sendData _ _ => true
  | .cfgChan _ _ _ => true
  | .bindQueue _ _ _ => true
  | .setConn _ _ => true
  | .readChan _ => true
  | .readStatus => true
  | .ackDisc0 => true
  | .setMuxEn _ => true
  | .reservedOp0 => true
  | .reservedOpA => true
  | .reservedOpB => true
  | .reservedOpC => true
  | .reservedOpD => true
  | .reservedOpE => true
  | .reservedOpF => true

end Sys2Proof
end

