-- ==== Sys2Proof/Decode.lean ====
section
/-! DEFINITION. The decoder of both opcode spaces, and after it the encoder (spec 30_encoding.md R82, R83, R90-R93, R96).
Both spaces are full: every byte is some frame type (OTHER takes what no row names) and every word some host operation
(reserved op codes are operations that answer BAD_OP), so only a code of the wrong width is rejected. -/

namespace Sys2Proof

/-! ## Control bytes -/

/-- The mask that clears the P/F bit (R83). PRESUMED (log 15): the spec marks the position of P/F as general knowledge. -/
def ftypeMask : Byte := 0xEF#8

/-- `ftype(c) = c & 0xEF`, the control byte with P/F cleared (R83). -/
def ftype (c : Byte) : Byte := c &&& ftypeMask

/-- The P/F bit, bit 4 of the control byte (R82). -/
def pfBit (c : Byte) : Bool := c.getLsbD 4

/-! The frame types of R83. UIH is the source's; PRESUMED (log 15): the spec marks the others as general knowledge. -/

def typeUI : Byte := 0x03#8
def typeUIH : Byte := 0xEF#8
def typeSABM : Byte := 0x2F#8
def typeUA : Byte := 0x63#8
def typeDM : Byte := 0x0F#8
def typeDISC : Byte := 0x43#8

/-- A data frame's control byte: its type is UI or UIH (R88, R163). -/
def isDataCtrl (c : Byte) : Bool := ftype c == typeUI || ftype c == typeUIH

/-- The control byte of a frame type with the given P/F bit (R82, R83). -/
def ctrlByte (t : Byte) (pf : Bool) : Byte := t ||| (if pf then 0x10#8 else 0#8)

/-- Decode a control byte: the typed rows first, OTHER last (R96). -/
def decodeCtrl (c : Byte) : Instr :=
  if ftype c = typeUI then .ui (pfBit c)
  else if ftype c = typeUIH then .uih (pfBit c)
  else if ftype c = typeSABM then .sabm (pfBit c)
  else if ftype c = typeUA then .ua (pfBit c)
  else if ftype c = typeDM then .dm (pfBit c)
  else if ftype c = typeDISC then .disc (pfBit c)
  else .other c

/-! ## Host command words -/

/-- `W[31:28]`. -/
def hostOp (w : HostWord) : BitVec 4 := w.extractLsb' 28 4

/-- `W[27:22]`. -/
def hostDlci (w : HostWord) : Dlci := w.extractLsb' 22 6

/-- `W[21]`. -/
def hostCr (w : HostWord) : Bool := w.getLsbD 21

/-- `W[20]`. -/
def hostB (w : HostWord) : Bool := w.getLsbD 20

/-- `W[15:0]`. -/
def hostArg (w : HostWord) : BitVec 16 := w.extractLsb' 0 16

/-- The mode that bit 20 of CFG_CHAN selects: 1 = UI, 0 = UIH (R90, R214). -/
def modeOfBit (b : Bool) : Mode := if b then .ui else .uih

/-- The inverse of `modeOfBit` (R31: 0 = UIH, 1 = UI). -/
def Mode.toBit : Mode → Bool
  | .uih => false
  | .ui => true

/-- Decode a host command word by its op code (R91). Fields the operation does not use, and bits 19:16, are
ignored (R90, R93(e)). -/
def decodeHost (w : HostWord) : Instr :=
  match (hostOp w).toNat with
  | 0x0 => .reservedOp0
  | 0x1 => .sendCmd (hostDlci w) (hostCr w) ((hostArg w).extractLsb' 0 8)
  | 0x2 => .sendData (hostDlci w) (hostCr w)
  | 0x3 => .cfgChan (hostDlci w) (modeOfBit (hostB w)) (hostArg w)
  | 0x4 => .bindQueue (hostDlci w) (hostB w) (hostArg w)
  | 0x5 => .setConn (hostDlci w) (hostB w)
  | 0x6 => .readChan (hostDlci w)
  | 0x7 => .readStatus
  | 0x8 => .ackDisc0
  | 0x9 => .setMuxEn (hostB w)
  | 0xA => .reservedOpA
  | 0xB => .reservedOpB
  | 0xC => .reservedOpC
  | 0xD => .reservedOpD
  | 0xE => .reservedOpE
  | _ => .reservedOpF

/-! ## One decoder for both spaces -/

/-- An encoded instruction of either space (R96). -/
inductive Code where
  | ctrl (c : Byte)
  | host (w : HostWord)
  deriving DecidableEq, Repr

/-- Decode an encoded instruction; total, since both spaces are full. -/
def decode : Code → Instr
  | .ctrl c => decodeCtrl c
  | .host w => decodeHost w

/-- Why a string of bits is no encoded instruction. -/
inductive DecodeError where
  /-- Neither a control byte (8 bits) nor a host word (32 bits). -/
  | noFormatOfThisWidth (nbits : Nat)
  deriving DecidableEq, Repr

/-- Read `nbits` bits of the number `w` as a code: a control byte has 8 bits, a host word 32 (R96).
DESIGN CHOICE (log 17), safe: a width that no row has is rejected by name. -/
def codeOfBits (nbits w : Nat) : Except DecodeError Code :=
  if nbits ≤ 8 then .ok (.ctrl (BitVec.ofNat 8 w))
  else if nbits ≤ 32 then .ok (.host (BitVec.ofNat 32 w))
  else .error (.noFormatOfThisWidth nbits)

/-- Decode `nbits` bits, rejecting other widths by name. -/
def decodeBits (nbits w : Nat) : Except DecodeError Instr :=
  match codeOfBits nbits w with
  | .ok c => .ok (decode c)
  | .error e => .error e

/-- The instruction the decoder reads from an instruction whose bits are `w`, numbered as the opcode table numbers them. -/
def decodeTableWord (nbits w : Nat) : Option Instr :=
  match decodeBits nbits w with
  | .ok i => some i
  | .error _ => none

/-! ## The encoder -/

/-- Assemble a host command word from its fields, reserved bits zero (R90). -/
def hostWord (op : BitVec 4) (d : Dlci) (cr b : Bool) (arg : BitVec 16) : HostWord :=
  op ++ d ++ BitVec.ofBool cr ++ BitVec.ofBool b ++ 0#4 ++ arg

/-- The code of an instruction; fields its operation does not use are zero. -/
def encode : Instr → Code
  | .ui pf => .ctrl (ctrlByte typeUI pf)
  | .uih pf => .ctrl (ctrlByte typeUIH pf)
  | .sabm pf => .ctrl (ctrlByte typeSABM pf)
  | .ua pf => .ctrl (ctrlByte typeUA pf)
  | .dm pf => .ctrl (ctrlByte typeDM pf)
  | .disc pf => .ctrl (ctrlByte typeDISC pf)
  | .other c => .ctrl c
  | .sendCmd d cr c => .host (hostWord 0x1 d cr false (c.zeroExtend 16))
  | .sendData d cr => .host (hostWord 0x2 d cr false 0)
  | .cfgChan d m mtu => .host (hostWord 0x3 d false m.toBit mtu)
  | .bindQueue d bind h => .host (hostWord 0x4 d false bind h)
  | .setConn d v => .host (hostWord 0x5 d false v 0)
  | .readChan d => .host (hostWord 0x6 d false false 0)
  | .readStatus => .host (hostWord 0x7 0 false false 0)
  | .ackDisc0 => .host (hostWord 0x8 0 false false 0)
  | .setMuxEn en => .host (hostWord 0x9 0 false en 0)
  | .reservedOp0 => .host (hostWord 0x0 0 false false 0)
  | .reservedOpA => .host (hostWord 0xA 0 false false 0)
  | .reservedOpB => .host (hostWord 0xB 0 false false 0)
  | .reservedOpC => .host (hostWord 0xC 0 false false 0)
  | .reservedOpD => .host (hostWord 0xD 0 false false 0)
  | .reservedOpE => .host (hostWord 0xE 0 false false 0)
  | .reservedOpF => .host (hostWord 0xF 0 false false 0)

end Sys2Proof
end

