-- ==== Sys2Proof/Config.lean ====
section
/-! DEFINITION. What an implementation fixes: the named parameters of the block (spec 00_scope.md R4-R8).
N_DLCI = 64 is fixed by the spec and is the width of `Dlci`; CNT_W = 32 is the width of `Counter`.
T_CONNECT, N_RETRY, N and the backoff interval belong to host procedures and no rule of the block depends on them (R8). -/

namespace Sys2Proof

/-- The parameters a model takes (R5). `scratchCap` is SCRATCH_CAP, the capacity in bytes of the scratch buffer.
No step changes it. -/
structure Config where
  scratchCap : Nat
  deriving DecidableEq, Repr

/-- The range R5 gives: `1 <= SCRATCH_CAP <= 32767`. -/
abbrev Config.Ok (c : Config) : Prop := 1 ≤ c.scratchCap ∧ c.scratchCap ≤ 32767

/-- The parameter value that `State.reset` carries: the value that 95_test_vectors.md uses.
DESIGN CHOICE (log 5), unsafe: the spec leaves SCRATCH_CAP open, and no statement rests on this number. -/
def Config.initial : Config := { scratchCap := 256 }

end Sys2Proof
end

