-- ==== Sys2Proof/Machine/State.lean ====
section
/-! DEFINITION. The state of the block (spec 10_state.md), the environment's side of its interfaces (R20) as plain data,
the reasons a step can stop, and reset (R270). -/

namespace Sys2Proof.Machine

/-! ## Decoder context (R23-R29) -/

/-- `rx_state` (R23), in the order of its 3-bit encoding; `unused7` is the value 7, "never reached". -/
inductive RxState where
  | waitingAddress
  | cmd
  | len
  | lenExt
  | data
  | fcsCheck
  | flagExpected
  | unused7
  deriving DecidableEq, Repr

/-- The scratch buffer: its bytes by index, indexes strictly rising, no entry equal to what an unlisted index reads as. -/
abbrev Memory := List Host.Cell

/-- What a byte of the scratch buffer that no entry lists reads as.
DESIGN CHOICE (log 4), unsafe: the spec leaves the buffer's reset contents unspecified, and no rule reads such a byte (R28). -/
def Memory.unlisted : Byte := 0x00#8

/-- The canonical form: equal buffers are equal lists. -/
abbrev Memory.wf (m : Memory) : Prop :=
  m.Pairwise (fun x y => x.1 < y.1) ∧ ∀ x ∈ m, x.2 ≠ Memory.unlisted

/-- The decoder context, owned by the RX agent alone (R43). -/
structure Decoder where
  /-- R23 -/
  rxState : RxState
  /-- The address byte of the frame being received (R24). -/
  addr : Byte
  /-- Its control byte (R25). -/
  ctrl : Byte
  /-- The running FCS accumulator (R26). -/
  fcs : Byte
  /-- The declared payload length (R27). -/
  size : Len15
  /-- The payload bytes consumed so far (R27). -/
  cnt : Len15
  /-- The scratch buffer (R28). -/
  buf : Memory
  /-- The frame's captured destination; `none` marks the frame for discard (R29, R40). -/
  q : Option Handle
  /-- 1 until the FCS check fails (R29). -/
  valid : Bool
  deriving DecidableEq, Repr

/-! ## Channel registry (R30-R33) -/

/-- One registry entry. -/
structure Channel where
  /-- R30 -/
  connected : Bool
  /-- R31 -/
  mode : Mode
  /-- R32 -/
  mtu : Mtu
  /-- R33 -/
  queue : Option Handle
  deriving DecidableEq, Repr

/-! ## What the host port returns (R92, R245) -/

/-- Host status codes (R245). -/
inductive Status where
  | ok
  | notReady
  | mtuRange
  | badOp
  deriving DecidableEq, Repr

/-- The record READ_STATUS returns (R92, R221). -/
structure StatusRecord where
  uaCount : Counter
  dmCount : Counter
  rxDropCount : Counter
  disc0Pending : Bool
  muxEn : Bool
  rxState : RxState
  deriving DecidableEq, Repr

/-- The data a host operation returns beside its status (R92, R212). -/
inductive HostData where
  | none
  /-- SEND_DATA's bytes accepted (R212). -/
  | accepted (n : Nat)
  /-- READ_CHAN's record (R219). -/
  | chan (c : Channel)
  /-- READ_STATUS's record (R221). -/
  | status (r : StatusRecord)
  deriving DecidableEq, Repr

/-- What one completed host operation returned. -/
structure HostReply where
  status : Status
  data : HostData
  deriving DecidableEq, Repr

/-- The two transmit queues (R20). -/
inductive TxQueue where
  | hi
  | lo
  deriving DecidableEq, Repr

/-- A frame: the bytes of one offer (R65). -/
abbrev Frame := List Byte

/-- A send operation that holds the host port: its queue, the frames not yet accepted, oldest first, and what it
returns once the last one is accepted (R65, R210, R213). -/
structure Held where
  queue : TxQueue
  frames : List Frame
  reply : HostReply
  deriving DecidableEq, Repr

/-! ## The observation trace (R241) -/

/-- The events of R242. The trace is not architectural state. -/
inductive Event where
  | framing
  | fcs
  | discard
  | unconnected
  | qFull
  | replyDrop
  | otherCmd
  deriving DecidableEq, Repr

/-! ## The environment's side of the interfaces (R20, R21): the model's own fields -/

/-- The environment's answers within one step, each a free draw (R64, R65; 93_implementation_defined.md U11, U12).
A step asks each question at most once (log 2). -/
structure Answers where
  /-- The answer to `QFree(h)`. -/
  qFree : Nat
  /-- Whether `TxHiTry` answers `ok`. -/
  txHiOk : Bool
  /-- Whether a held `TxHi` or `TxLo` offer is accepted in this step. -/
  txAccept : Bool
  deriving DecidableEq, Repr

/-- One step the environment schedules (R12, R69, R271). -/
inductive Turn where
  /-- A byte arrives: one RX step. -/
  | rx (b : Byte) (a : Answers)
  /-- The host agent's turn: it goes on with the operation that holds the port, or issues the next one. -/
  | host (a : Answers)
  /-- The reset input. -/
  | reset
  deriving DecidableEq, Repr

/-- A host operation as the host issues it: the command word and the payload (R90, R210). -/
structure HostCmd where
  word : HostWord
  payload : List Byte
  deriving DecidableEq, Repr

/-- The inputs still to come, and what the environment supplies to the current step. -/
structure Env where
  turns : List Turn
  hostOps : List HostCmd
  answers : Answers
  payload : List Byte
  deriving DecidableEq, Repr

/-- Everything the block has put out, oldest first (log 9). -/
structure Outputs where
  /-- Frames TX_HI accepted. -/
  txHi : List Frame
  /-- Frames TX_LO accepted. -/
  txLo : List Frame
  /-- Bytes pushed to receive queues, each with its handle. -/
  pushed : List (Handle × Byte)
  /-- Bytes handed to the raw line handler. -/
  rawOut : List Byte
  /-- What host operations returned. -/
  replies : List HostReply
  /-- The observation trace. -/
  events : List Event
  deriving DecidableEq, Repr

/-! ## The state -/

/-- The block, its parameter, and the environment's side of its interfaces. -/
structure State where
  /-- Decoder context (R23-R29). -/
  rx : Decoder
  /-- Channel registry, 64 entries (R4, R30-R33). -/
  reg : Vector Channel 64
  /-- R34 -/
  uaCount : Counter
  /-- R35 -/
  dmCount : Counter
  /-- R36 -/
  rxDropCount : Counter
  /-- R37 -/
  disc0Pending : Bool
  /-- R38 -/
  muxEn : Bool
  /-- The send operation holding the host port (R65, R210). -/
  held : Option Held
  /-- SCRATCH_CAP (R5). -/
  cfg : Config
  /-- Inputs (the model's own field). -/
  env : Env
  /-- Outputs (the model's own field). -/
  out : Outputs
  deriving DecidableEq, Repr

/-! ## Why a step can stop -/

/-- The block has no traps (R240); these are the model's own stops, which no run from reset reaches. -/
inductive Fault where
  /-- Raised by an RX step taken with `mux_en = 1` and `rx_state = 7`: the state the spec lets a model treat as stuck
  (R160, 93_implementation_defined.md U4). Safe (log 6). -/
  | rxStateUnused
  /-- Raised by a DATA step or a delivery that would reach the scratch buffer at an index of SCRATCH_CAP or more, which
  does not exist (R60(a)); R42 excludes it. Safe (log 7). -/
  | scratchOutOfRange
  deriving DecidableEq, Repr

/-- Why an instruction has no meaning. -/
inductive Refusal where
  /-- Raised by an arm of `exec` whose instruction has no meaning yet; no arm does. Safe. -/
  | notModelled (mnemonic : String)
  deriving DecidableEq, Repr

/-! ## Reset (R270) -/

/-- The reset value of a registry entry (R30-R33, R270). -/
def Channel.reset : Channel := { connected := false, mode := .uih, mtu := 0, queue := none }

/-- The decoder context after reset: `rx_state` as R270 says; the spec leaves the other fields unspecified.
DESIGN CHOICE (log 3, log 4), unsafe: they are zero, none and 0. -/
def Decoder.reset : Decoder :=
  { rxState := .waitingAddress, addr := 0, ctrl := 0, fcs := 0, size := 0, cnt := 0, buf := [], q := none, valid := false }

/-- The machine right after reset (R270), with nothing scheduled and nothing put out (log 18). -/
def State.reset : State :=
  { rx := Decoder.reset
    reg := Vector.replicate 64 Channel.reset
    uaCount := 0
    dmCount := 0
    rxDropCount := 0
    disc0Pending := false
    muxEn := false
    held := none
    cfg := Config.initial
    env := { turns := [], hostOps := [], answers := { qFree := 0, txHiOk := true, txAccept := true }, payload := [] }
    out := { txHi := [], txLo := [], pushed := [], rawOut := [], replies := [], events := [] } }

end Sys2Proof.Machine
end

