-- ==== Sys2Proof/Machine/Operands.lean ====
section
/-! DEFINITION. The operands the receive side assembles from a frame, and the numeric codes of named values
(spec 30_encoding.md R80, R81, R86, R89; 10_state.md R23, R31). -/

namespace Sys2Proof.Machine

/-- The flag byte, which opens and closes every frame (R80). -/
def FLAG : Byte := 0xF9#8

/-- `addr[7:2]`, the DLCI of an address byte (R81). -/
def addrDlci (a : Byte) : Dlci := a.extractLsb' 2 6

/-- `addr[1]`, the CR bit of an address byte (R81). -/
def addrCr (a : Byte) : Bool := a.getLsbD 1

/-- The EA bit, bit 0 of an address or of a first length byte (R81, R86). -/
def eaBit (b : Byte) : Bool := b.getLsbD 0

/-- `addr >> 1 = (dlci << 1) | cr`, the manager's first operand (R89, R171). -/
def addrDc (a : Byte) : BitVec 7 := a.extractLsb' 1 7

/-- The DLCI of the manager's operand (R195: `d <- dc >> 1`). -/
def dcDlci (dc : BitVec 7) : Dlci := dc.extractLsb' 1 6

/-- The CR bit of the manager's operand (R195: `cr <- dc & 1`). -/
def dcCr (dc : BitVec 7) : Bool := dc.getLsbD 0

/-- The length a first length byte carries: `zext_15(b >> 1)` (R86, R164). -/
def lenFirst (b : Byte) : Len15 := (b >>> 1).zeroExtend 15

/-- The length completed by a second length byte: `size | (zext_15(b) << 7)` (R86, R165). -/
def lenSecond (size : Len15) (b : Byte) : Len15 := size ||| (b.zeroExtend 15 <<< 7)

/-- The 3-bit encoding of `rx_state` (R23). -/
def RxState.code : RxState → BitVec 3
  | .waitingAddress => 0
  | .cmd => 1
  | .len => 2
  | .lenExt => 3
  | .data => 4
  | .fcsCheck => 5
  | .flagExpected => 6
  | .unused7 => 7

end Sys2Proof.Machine
end

