-- ==== Sys2Proof/Machine/Codec.lean ====
section
/-! DEFINITION. The frame encoder, pure functions (spec 41_codec.md R140-R146). -/

namespace Sys2Proof.Machine

/-- `EncAddr(d, cr) = (d << 2) | (cr << 1) | 1` (R140). -/
def encAddr (d : Dlci) (cr : Bool) : Byte :=
  (d.zeroExtend 8 <<< 2) ||| (if cr then 0x02#8 else 0x00#8) ||| 0x01#8

/-- `EncLen(n)`: one byte with EA = 1 up to 0x7F, else two bytes, low 7 bits first (R141). -/
def encLen (n : Nat) : List Byte :=
  if n ≤ 0x7F then [BitVec.ofNat 8 ((n <<< 1) ||| 1)]
  else [BitVec.ofNat 8 ((n &&& 0x7F) <<< 1), BitVec.ofNat 8 (n >>> 7)]

/-- `EncodeCmd(d, cr, c)`: a 5-byte command frame (R142). -/
def encodeCmd (d : Dlci) (cr : Bool) (c : Byte) : Frame :=
  [FLAG, encAddr d cr, c, crcCompute [encAddr d cr, c], FLAG]

/-- The control byte of a sent data frame: P/F clear (R143, R144). -/
def dataCtrl : Mode → Byte
  | .ui => typeUI
  | .uih => typeUIH

/-- The bytes of a data frame before its payload, flag excluded: address, control, length (R85). -/
def dataHeader (d : Dlci) (cr : Bool) (mode : Mode) (n : Nat) : List Byte :=
  [encAddr d cr, dataCtrl mode] ++ encLen n

/-- The bytes the FCS of a data frame covers: the header, and the payload too for UI (R87, R143). -/
def dataCovered (d : Dlci) (cr : Bool) (mode : Mode) (p : List Byte) : List Byte :=
  dataHeader d cr mode p.length ++ (match mode with | .ui => p | .uih => [])

/-- `EncodeData(d, cr, mode, s)`: one data frame (R143). -/
def encodeData (d : Dlci) (cr : Bool) (mode : Mode) (p : List Byte) : Frame :=
  [FLAG] ++ dataHeader d cr mode p.length ++ p ++ [crcCompute (dataCovered d cr mode p), FLAG]

/-- `Segments(P, mtu)` for `mtu >= 1`: the slices `P[i*mtu : min((i+1)*mtu, len(P))]`, and one empty segment for an empty
payload (R146). -/
def segments (p : List Byte) (mtu : Nat) : List (List Byte) :=
  if p.length = 0 then [[]]
  else (List.range ((p.length + mtu - 1) / mtu)).map fun i => (p.drop (i * mtu)).take mtu

end Sys2Proof.Machine
end

