-- ==== Sys2Proof/Machine/Flags.lean ====
section
/-! DEFINITION. The one-bit conditions the block computes (spec 10_state.md R40) and the codes of its events and statuses
(60_exceptions.md R242, R245). -/

namespace Sys2Proof.Machine

/-- The FCS check: the accumulator, with the received FCS folded in, equals the good residue (R169). -/
def fcsGood (fcs : Byte) : Bool := fcs == crcResidue

/-- The test that marks a data frame for discard when its length is final: `size > reg[d].mtu` (R166). -/
def oversize (size : Len15) (mtu : Mtu) : Bool := mtu.toNat < size.toNat

/-- The delivery test: DLCI 0 is always addressable, a data channel only when connected (R170). -/
def deliverable (d : Dlci) (c : Channel) : Bool := d == 0#6 || c.connected

/-- The codes of R242. -/
def Event.code : Event → Nat
  | .framing => 1
  | .fcs => 2
  | .discard => 3
  | .unconnected => 4
  | .qFull => 5
  | .replyDrop => 6
  | .otherCmd => 7

/-- The codes of R245. -/
def Status.code : Status → Nat
  | .ok => 0
  | .notReady => 1
  | .mtuRange => 2
  | .badOp => 3

end Sys2Proof.Machine
end

