-- ==== Sys2Proof/Machine/Ops.lean ====
section
/-! DEFINITION. The named operations over the scratch buffer, the registry, the interfaces and the host port
(spec 20_memory.md R60-R66, 42_rx_fsm.md R163, R170, 43_conn_mgr.md R196, 44_host_ops.md R210, R213).
The block has no trap (60_exceptions.md R240): the nearest things to taking an exception are `hostError` (R245) and
`resetBlock` (R271). -/

namespace Sys2Proof.Machine

/-- What a step or a meaning answers. -/
abbrev Result := Host.Outcome State Fault Refusal

/-! ## Scratch buffer (R28, R60(a)) -/

/-- Read one byte. -/
def Memory.read : Memory → Nat → Byte
  | [], _ => Memory.unlisted
  | x :: m, i => if x.1 = i then x.2 else Memory.read m i

/-- Put an entry in front, unless it says what an unlisted index reads as. -/
def Memory.cons (i : Nat) (b : Byte) (m : Memory) : Memory := if b = Memory.unlisted then m else (i, b) :: m

/-- Write one byte, keeping the canonical form. -/
def Memory.write : Memory → Nat → Byte → Memory
  | [], i, b => Memory.cons i b []
  | x :: m, i, b =>
    if i < x.1 then Memory.cons i b (x :: m)
    else if x.1 = i then Memory.cons i b m
    else x :: Memory.write m i b

/-- Bytes 0..k-1 of the buffer. -/
def Memory.readFirst (m : Memory) (k : Nat) : List Byte := (List.range k).map (Memory.read m)

/-! ## Registry (R4, R30-R33) -/

/-- `reg[d]`. -/
def State.chan (s : State) (d : Dlci) : Channel := s.reg[d.toNat]'d.isLt

/-- Write the whole entry `reg[d]`. -/
def State.setChan (s : State) (d : Dlci) (c : Channel) : State := { s with reg := s.reg.set d.toNat c d.isLt }

/-- `reg[d].connected <- v` (R190, R191, R218). -/
def State.setConnected (s : State) (d : Dlci) (v : Bool) : State := s.setChan d { s.chan d with connected := v }

/-- `reg[d].mode <- mode; reg[d].mtu <- mtu`, in one step (R63, R214). -/
def State.setFormat (s : State) (d : Dlci) (mode : Mode) (mtu : Mtu) : State :=
  s.setChan d { s.chan d with mode := mode, mtu := mtu }

/-- `reg[d].queue <- q` (R216). -/
def State.setQueue (s : State) (d : Dlci) (q : Option Handle) : State := s.setChan d { s.chan d with queue := q }

/-! ## Outputs (R20) -/

/-- `Event(name)` (R241). -/
def State.logEvent (s : State) (e : Event) : State := { s with out := { s.out with events := s.out.events ++ [e] } }

/-- `RawOut(b)` (R160). -/
def State.emitRaw (s : State) (b : Byte) : State := { s with out := { s.out with rawOut := s.out.rawOut ++ [b] } }

/-- A transmit queue accepts a whole frame (R65, R71). -/
def State.enqueue (s : State) (q : TxQueue) (f : Frame) : State :=
  match q with
  | .hi => { s with out := { s.out with txHi := s.out.txHi ++ [f] } }
  | .lo => { s with out := { s.out with txLo := s.out.txLo ++ [f] } }

/-- `Push(h, b)` for each byte in order (R64, R70). -/
def State.push (s : State) (h : Handle) (bytes : List Byte) : State :=
  { s with out := { s.out with pushed := s.out.pushed ++ bytes.map fun b => (h, b) } }

/-- The host port returns a status code and a data record (R92). -/
def State.reply (s : State) (r : HostReply) : State := { s with out := { s.out with replies := s.out.replies ++ [r] } }

/-- The bytes pushed to one receive queue, oldest first (R60(c)). -/
def State.queueBytes (s : State) (h : Handle) : List Byte :=
  s.out.pushed.filterMap fun p => if p.1 = h then some p.2 else none

/-! ## Counters (R34-R36) -/

/-- `ua_count <- (ua_count + 1) mod 2^32` (R192). -/
def State.countUa (s : State) : State := { s with uaCount := s.uaCount + 1 }

/-- `dm_count <- (dm_count + 1) mod 2^32` (R193). -/
def State.countDm (s : State) : State := { s with dmCount := s.dmCount + 1 }

/-- `rx_drop_count <- (rx_drop_count + n) mod 2^32` (R170). -/
def State.countDrops (s : State) (n : Nat) : State := { s with rxDropCount := s.rxDropCount + BitVec.ofNat 32 n }

/-- `disc0_pending <- 1` (R37, R190). -/
def State.raiseDisc0 (s : State) : State := { s with disc0Pending := true }

/-! ## Receive side -/

/-- `rx_state <- r`. -/
def State.setRxState (s : State) (r : RxState) : State := { s with rx := { s.rx with rxState := r } }

/-- CMD, control byte: capture it, fold it, and choose the data or the command path (R163). -/
def State.captureControl (s : State) (c : Byte) : State :=
  { s with rx := { s.rx with
      ctrl := c
      fcs := upd s.rx.fcs c
      rxState := if isDataCtrl c then .len else .fcsCheck } }

/-- The bytes of a kept frame go to queue `h` as far as it has room; the rest are counted as drops (R64, R170). -/
def State.pushPayload (s : State) (h : Handle) : Result :=
  let size := s.rx.size.toNat
  let k := min size s.env.answers.qFree
  if s.cfg.scratchCap < k then .fault .scratchOutOfRange
  else
    let s1 := s.push h (s.rx.buf.readFirst k)
    if k < size then .next ((s1.countDrops (size - k)).logEvent .qFull) else .next s1

/-- FLAG_EXPECTED, closing flag, valid data frame: delivery (R170). -/
def State.deliver (s : State) : Result :=
  let d := addrDlci s.rx.addr
  let s1 := s.setRxState .waitingAddress
  match s.rx.q with
  | none => .next (s1.logEvent .discard)
  | some h => if deliverable d (s.chan d) then s1.pushPayload h else .next (s1.logEvent .unconnected)

/-- `Reply(d, cr, c2)`: offer a command frame to TX_HI without blocking; a full queue loses it (R196). -/
def State.replyFrame (s : State) (d : Dlci) (cr : Bool) (c2 : Byte) : State :=
  if s.env.answers.txHiOk then s.enqueue .hi (encodeCmd d cr c2) else s.logEvent .replyDrop

/-! ## Host port (R210-R213, R245) -/

/-- `raise HostError(code)`: the operation ends with that code and no further effect (R245). -/
def State.hostError (s : State) (code : Status) : State := s.reply { status := code, data := .none }

/-- The operation ends with status OK and a data record. -/
def State.hostOk (s : State) (data : HostData) : State := s.reply { status := .ok, data := data }

/-- Offer the next frame of the operation that holds the port. If the queue accepts it, the frame is gone, and after the
last one the operation returns; otherwise the operation still holds (R65, R210, R213). -/
def State.offerNext (s : State) : State :=
  match s.held with
  | none => s
  | some op =>
    match op.frames with
    | [] => ({ s with held := none }).reply op.reply
    | f :: fs =>
      if s.env.answers.txAccept then
        match fs with
        | [] => (({ s with held := none }).enqueue op.queue f).reply op.reply
        | _ :: _ => ({ s with held := some { op with frames := fs } }).enqueue op.queue f
      else s

/-- Begin a send: it holds the port, and its first frame is offered in the same step (R210, R213).
DEDUCED (log 13): the step that issues the operation is the step of its first offer. -/
def State.startSend (s : State) (q : TxQueue) (frames : List Frame) (r : HostReply) : State :=
  ({ s with held := some { queue := q, frames := frames, reply := r } }).offerNext

/-! ## Turns (R12, R69, R271) -/

/-- The environment's turn begins: it leaves the schedule, and its answers hold for this step. -/
def State.beginTurn (s : State) (rest : List Turn) (a : Answers) : State :=
  { s with env := { s.env with turns := rest, answers := a } }

/-- The reset input: every piece of block state at its reset value; the environment and its queues are not reset (R271).
DEDUCED (log 8): an operation that held the port is gone and returns no status. -/
def State.resetBlock (s : State) : State :=
  { State.reset with cfg := s.cfg, env := s.env, out := s.out }

end Sys2Proof.Machine
end

