-- ==== Sys2Proof/Machine/FrameData.lean ====
section
/-! DEFINITION. The data frame types UI and UIH (spec 42_rx_fsm.md R163, R170). A frame type acts twice: when its control
byte arrives in CMD, and when the closing flag of a valid frame arrives (log 11). -/

namespace Sys2Proof.Machine

/-- The two moments at which a control byte selects what happens: in CMD it is captured (R163), otherwise the frame it
opened is being closed. DESIGN CHOICE (log 11), safe: `rxStep` runs an instruction at these two moments only. -/
def frameInstr (c : Byte) (close : State → Result) (s : State) : Result :=
  if s.rx.rxState = .cmd then .next (s.captureControl c) else close s

/-- UI: a data frame whose payload the FCS covers (R163, R168, R170). -/
def execUi (pf : Bool) (s : State) : Result := frameInstr (ctrlByte typeUI pf) State.deliver s

/-- UIH: a data frame whose payload the FCS does not cover (R163, R168, R170). -/
def execUih (pf : Bool) (s : State) : Result := frameInstr (ctrlByte typeUIH pf) State.deliver s

end Sys2Proof.Machine
end

