-- ==== Sys2Proof/Machine/ConnMgr.lean ====
section
/-! DEFINITION. The connection manager's frame types (spec 43_conn_mgr.md R190-R196). R195's dispatch on the frame type is
`decodeCtrl` followed by `exec`; every other operand is computed here from the address byte. -/

namespace Sys2Proof.Machine

/-- UA|PF and DM|PF, the control bytes of the manager's replies (R190, R191). -/
def ctrlUaPf : Byte := 0x73#8
def ctrlDmPf : Byte := 0x1F#8

/-- FLAG_EXPECTED, closing flag, valid command frame: the manager runs on `addr >> 1` and the FSM goes back to
WAITING_ADDRESS in the same step (R171). -/
def connMgr (action : BitVec 7 → State → State) (s : State) : Result :=
  .next ((action (addrDc s.rx.addr) s).setRxState .waitingAddress)

/-- R190. -/
def discAction (dc : BitVec 7) (s : State) : State :=
  let d := dcDlci dc
  let s1 :=
    if (s.chan d).connected then (s.setConnected d false).replyFrame d (dcCr dc) ctrlUaPf
    else s.replyFrame d (dcCr dc) ctrlDmPf
  if d = 0#6 then s1.raiseDisc0 else s1

/-- R191. -/
def sabmAction (dc : BitVec 7) (s : State) : State :=
  (s.setConnected (dcDlci dc) true).replyFrame (dcDlci dc) (dcCr dc) ctrlUaPf

/-- R192. -/
def uaAction (_ : BitVec 7) (s : State) : State := s.countUa

/-- R193. -/
def dmAction (_ : BitVec 7) (s : State) : State := s.countDm

/-- R194. -/
def otherAction (_ : BitVec 7) (s : State) : State := s.logEvent .otherCmd

/-- SABM: connect request (R163, R171, R191). -/
def execSabm (pf : Bool) (s : State) : Result := frameInstr (ctrlByte typeSABM pf) (connMgr sabmAction) s

/-- UA: acknowledgement (R163, R171, R192). -/
def execUa (pf : Bool) (s : State) : Result := frameInstr (ctrlByte typeUA pf) (connMgr uaAction) s

/-- DM: disconnected-mode response (R163, R171, R193). -/
def execDm (pf : Bool) (s : State) : Result := frameInstr (ctrlByte typeDM pf) (connMgr dmAction) s

/-- DISC: disconnect request (R163, R171, R190). -/
def execDisc (pf : Bool) (s : State) : Result := frameInstr (ctrlByte typeDISC pf) (connMgr discAction) s

/-- Any other frame type: discarded with no reply (R163, R171, R194). -/
def execOther (c : Byte) (s : State) : Result := frameInstr c (connMgr otherAction) s

end Sys2Proof.Machine
end

