-- ==== Sys2Proof/Machine/HostOps.lean ====
section
/-! DEFINITION. The host operations and the reserved op codes (spec 44_host_ops.md R211-R223). -/

namespace Sys2Proof.Machine

/-- The queue a data frame is offered to: TX_HI on DLCI 0, TX_LO on a data channel (R213). -/
def dataQueue (d : Dlci) : TxQueue := if d = 0#6 then .hi else .lo

/-- SEND_CMD: a command frame on TX_HI, held until accepted (R211). -/
def execSendCmd (d : Dlci) (cr : Bool) (c : Byte) (s : State) : Result :=
  .next (s.startSend .hi [encodeCmd d cr c] { status := .ok, data := .none })

/-- SEND_DATA: the payload on the port, segmented by the channel's MTU and framed by its mode (R212). -/
def execSendData (d : Dlci) (cr : Bool) (s : State) : Result :=
  let c := s.chan d
  let p := s.env.payload
  if c.mtu = 0 then .next (s.hostError .notReady)
  else
    .next (s.startSend (dataQueue d) ((segments p c.mtu.toNat).map (encodeData d cr c.mode))
      { status := .ok, data := .accepted p.length })

/-- CFG_CHAN: a channel's frame type and MTU, refused above SCRATCH_CAP (R214). -/
def execCfgChan (d : Dlci) (mode : Mode) (mtu : Mtu) (s : State) : Result :=
  if s.cfg.scratchCap < mtu.toNat then .next (s.hostError .mtuRange)
  else .next ((s.setFormat d mode mtu).hostOk .none)

/-- BIND_QUEUE: set or clear a channel's receive queue (R216). -/
def execBindQueue (d : Dlci) (bind : Bool) (h : Handle) (s : State) : Result :=
  .next ((s.setQueue d (if bind then some h else none)).hostOk .none)

/-- SET_CONN: a channel's connected flag (R218). -/
def execSetConn (d : Dlci) (v : Bool) (s : State) : Result := .next ((s.setConnected d v).hostOk .none)

/-- READ_CHAN: a channel entry (R219). -/
def execReadChan (d : Dlci) (s : State) : Result := .next (s.hostOk (.chan (s.chan d)))

/-- READ_STATUS: the global status (R221). -/
def execReadStatus (s : State) : Result :=
  .next (s.hostOk (.status
    { uaCount := s.uaCount, dmCount := s.dmCount, rxDropCount := s.rxDropCount, disc0Pending := s.disc0Pending,
      muxEn := s.muxEn, rxState := s.rx.rxState }))

/-- ACK_DISC0: clear the DLCI-0 disconnect signal (R222). -/
def execAckDisc0 (s : State) : Result := .next (({ s with disc0Pending := false }).hostOk .none)

/-- SET_MUX_EN: switch the RX input; turning it on restarts the decoder (R223). -/
def execSetMuxEn (en : Bool) (s : State) : Result :=
  let s1 := if en && !s.muxEn then s.setRxState .waitingAddress else s
  .next (({ s1 with muxEn := en }).hostOk .none)

/-! The reserved op codes answer BAD_OP and change nothing (R220, R93(d)). -/

def execReservedOp0 (s : State) : Result := .next (s.hostError .badOp)
def execReservedOpA (s : State) : Result := .next (s.hostError .badOp)
def execReservedOpB (s : State) : Result := .next (s.hostError .badOp)
def execReservedOpC (s : State) : Result := .next (s.hostError .badOp)
def execReservedOpD (s : State) : Result := .next (s.hostError .badOp)
def execReservedOpE (s : State) : Result := .next (s.hostError .badOp)
def execReservedOpF (s : State) : Result := .next (s.hostError .badOp)

end Sys2Proof.Machine
end

