-- ==== Sys2Proof/Machine/Dispatch.lean ====
section
/-! DEFINITION. One arm per instruction, each one direct call of its meaning. -/

namespace Sys2Proof.Machine

def exec (i : Instr) (s : State) : Host.Outcome State Fault Refusal :=
  match i with
  -- control-byte frame types (R163, R170, R190-R194)
  | .ui pf => Sys2Proof.Machine.execUi pf s
  | .uih pf => Sys2Proof.Machine.execUih pf s
  | .sabm pf => Sys2Proof.Machine.execSabm pf s
  | .ua pf => Sys2Proof.Machine.execUa pf s
  | .dm pf => Sys2Proof.Machine.execDm pf s
  | .disc pf => Sys2Proof.Machine.execDisc pf s
  | .other c => Sys2Proof.Machine.execOther c s
  -- host operations (R211-R223)
  | .sendCmd d cr c => Sys2Proof.Machine.execSendCmd d cr c s
  | .sendData d cr => Sys2Proof.Machine.execSendData d cr s
  | .cfgChan d mode mtu => Sys2Proof.Machine.execCfgChan d mode mtu s
  | .bindQueue d bind h => Sys2Proof.Machine.execBindQueue d bind h s
  | .setConn d v => Sys2Proof.Machine.execSetConn d v s
  | .readChan d => Sys2Proof.Machine.execReadChan d s
  | .readStatus => Sys2Proof.Machine.execReadStatus s
  | .ackDisc0 => Sys2Proof.Machine.execAckDisc0 s
  | .setMuxEn en => Sys2Proof.Machine.execSetMuxEn en s
  -- reserved op codes (R220)
  | .reservedOp0 => Sys2Proof.Machine.execReservedOp0 s
  | .reservedOpA => Sys2Proof.Machine.execReservedOpA s
  | .reservedOpB => Sys2Proof.Machine.execReservedOpB s
  | .reservedOpC => Sys2Proof.Machine.execReservedOpC s
  | .reservedOpD => Sys2Proof.Machine.execReservedOpD s
  | .reservedOpE => Sys2Proof.Machine.execReservedOpE s
  | .reservedOpF => Sys2Proof.Machine.execReservedOpF s

end Sys2Proof.Machine
end

