-- ==== Sys2Proof/Machine/HostPort.lean ====
section
/-! DEFINITION. The host agent's turn (spec 44_host_ops.md R210, R213), and how one instruction is put where the next step
takes it (log 12). -/

namespace Sys2Proof.Machine

/-- Take the next host operation off the port and run it. -/
def issueHostOp (op : HostCmd) (rest : List HostCmd) (s : State) : Result :=
  exec (decodeHost op.word) { s with env := { s.env with hostOps := rest, payload := op.payload } }

/-- One host step: an operation that holds the port offers its next frame; otherwise the next operation is issued
(R210: one operation at a time; log 10); with neither, nothing happens (R255). -/
def hostStep (s : State) : Result :=
  match s.held with
  | some _ => .next s.offerNext
  | none =>
    match s.env.hostOps with
    | [] => .next s
    | op :: rest => issueHostOp op rest s

/-- A received frame with control byte `c` has passed its FCS check and its closing flag is the next byte to arrive. -/
def State.poiseFrame (s : State) (c : Byte) : State :=
  { s with
    muxEn := true
    rx := { s.rx with rxState := .flagExpected, valid := true, ctrl := c }
    env := { s.env with turns := Turn.rx FLAG s.env.answers :: s.env.turns } }

/-- The port is free and the host's next turn issues the operation `w`, with no payload. -/
def State.poiseHostOp (s : State) (w : HostWord) : State :=
  { s with
    held := none
    env := { s.env with
      turns := Turn.host s.env.answers :: s.env.turns
      hostOps := { word := w, payload := [] } :: s.env.hostOps } }

/-- Put a code where the next step runs it. -/
def State.poise (s : State) : Code → State
  | .ctrl c => s.poiseFrame c
  | .host w => s.poiseHostOp w

end Sys2Proof.Machine
end

