-- ==== Sys2Proof/Machine/RxFsm.lean ====
section
/-! DEFINITION. The receive FSM: one RX step per received byte (spec 42_rx_fsm.md R160-R172). The bytes that are opcodes,
the control byte in CMD and the control byte captured by a frame that is being closed, go through the decoder and `exec`. -/

namespace Sys2Proof.Machine

/-- WAITING_ADDRESS (R161, R162): an address byte starts a frame; a flag, or a byte with EA = 0, is ignored. -/
def rxAddress (b : Byte) (s : State) : State :=
  if b ≠ FLAG ∧ eaBit b = true then
    { s with rx := { s.rx with
        addr := b
        fcs := upd crcSeed b
        q := (s.chan (addrDlci b)).queue
        valid := true
        rxState := .cmd } }
  else s

/-- Finalise: the length is complete; an unknown destination or an oversize frame is marked for discard (R166). -/
def rxFinalise (s : State) : State :=
  { s with rx := { s.rx with
      q := if oversize s.rx.size (s.chan (addrDlci s.rx.addr)).mtu then none else s.rx.q
      rxState := if s.rx.size = 0 then .fcsCheck else .data } }

/-- LEN, first length byte (R164). -/
def rxLen (b : Byte) (s : State) : State :=
  let s1 := { s with rx := { s.rx with fcs := upd s.rx.fcs b, size := lenFirst b, cnt := 0 } }
  if eaBit b then rxFinalise s1 else s1.setRxState .lenExt

/-- LEN_EXT, second length byte (R165). -/
def rxLenExt (b : Byte) (s : State) : State :=
  rxFinalise { s with rx := { s.rx with fcs := upd s.rx.fcs b, size := lenSecond s.rx.size b } }

/-- The end of a DATA step: count the byte, and leave DATA after the last one (R167, R168). -/
def rxCount (s : State) : State :=
  { s with rx := { s.rx with
      cnt := s.rx.cnt + 1
      rxState := if s.rx.cnt + 1 = s.rx.size then .fcsCheck else s.rx.rxState } }

/-- DATA: a discarded frame's byte is lost (R167); a kept frame's byte goes to the scratch buffer, and into the FCS if the
received control byte is UI (R168). -/
def rxData (b : Byte) (s : State) : Result :=
  match s.rx.q with
  | none => .next (rxCount s)
  | some _ =>
    if s.cfg.scratchCap ≤ s.rx.cnt.toNat then .fault .scratchOutOfRange
    else
      .next (rxCount { s with rx := { s.rx with
        buf := s.rx.buf.write s.rx.cnt.toNat b
        fcs := if ftype s.rx.ctrl = typeUI then upd s.rx.fcs b else s.rx.fcs } })

/-- FCS_CHECK: fold the received FCS; anything but the good residue marks the frame invalid (R169). -/
def rxFcs (b : Byte) (s : State) : State :=
  { s with rx := { s.rx with
      fcs := upd s.rx.fcs b
      valid := if fcsGood (upd s.rx.fcs b) then s.rx.valid else false
      rxState := .flagExpected } }

/-- FLAG_EXPECTED (R170-R172): a flag that closes a valid frame runs what its control byte selects; any other byte is
E_FRAMING, and a flag that closes an invalid frame is E_FCS. -/
def rxFlag (b : Byte) (s : State) : Result :=
  if b ≠ FLAG then .next ((s.setRxState .waitingAddress).logEvent .framing)
  else if s.rx.valid then exec (decodeCtrl s.rx.ctrl) s
  else .next ((s.setRxState .waitingAddress).logEvent .fcs)

/-- The RX step dispatch (R160). -/
def rxStep (b : Byte) (s : State) : Result :=
  if s.muxEn then
    match s.rx.rxState with
    | .waitingAddress => .next (rxAddress b s)
    | .cmd => exec (decodeCtrl b) s
    | .len => .next (rxLen b s)
    | .lenExt => .next (rxLenExt b s)
    | .data => rxData b s
    | .fcsCheck => .next (rxFcs b s)
    | .flagExpected => rxFlag b s
    | .unused7 => .fault .rxStateUnused
  else .next (s.emitRaw b)

end Sys2Proof.Machine
end

