-- ==== Sys2Proof/Machine/Step.lean ====
section
/-! DEFINITION. One step of the block: the next turn of the environment's schedule (spec 00_scope.md R12, 20_memory.md R69).
With nothing scheduled the block is idle and keeps its state (60_exceptions.md R255). -/

namespace Sys2Proof.Machine

/-- One step: an RX step, a host step, or a reset. -/
def step (s : State) : Host.Outcome State Fault Refusal :=
  match s.env.turns with
  | [] => .next s
  | .rx b a :: rest => rxStep b (s.beginTurn rest a)
  | .host a :: rest => hostStep (s.beginTurn rest a)
  | .reset :: rest => .next (s.beginTurn rest s.env.answers).resetBlock

/-- The state whose very next step runs the instruction with these bits (log 12): a control byte closes a valid frame, a
host word is issued on the free port. -/
def State.withFetchWord (s : State) (nbits w : Nat) : State :=
  match codeOfBits nbits w with
  | .ok c => s.poise c
  | .error _ => s

end Sys2Proof.Machine
end

