-- ==== Sys2Proof/Safety.lean ====
section
/-! DEFINITION. What counts as a good state and a safe run, and when two states cannot be told apart: the terms the
statements use (spec 10_state.md R23, R32, R42; 70_reset_and_hazards.md R270). -/

namespace Sys2Proof.Safety

open Sys2Proof.Machine

/-- What holds of every state that a run reaches. R23: `rx_state` is never 7. R32: `reg[d].mtu <= SCRATCH_CAP`. R42: in
DATA, `cnt < size`, and a kept frame's size fits the scratch buffer until the frame is closed. The rest is what makes
these inductive, and the form of the scratch buffer and of an operation that holds the port. -/
structure Inv (s : State) : Prop where
  cap : s.cfg.Ok
  mtu : ∀ d : Dlci, (s.chan d).mtu.toNat ≤ s.cfg.scratchCap
  rxState : s.rx.rxState ≠ .unused7
  bufForm : Memory.wf s.rx.buf
  bufRange : ∀ x ∈ s.rx.buf, x.1 < s.cfg.scratchCap
  dataCtrl : s.rx.rxState = .len ∨ s.rx.rxState = .lenExt ∨ s.rx.rxState = .data → isDataCtrl s.rx.ctrl = true
  count0 : s.rx.rxState = .lenExt → s.rx.cnt = 0
  count : s.rx.rxState = .data → s.rx.cnt < s.rx.size
  room : s.rx.rxState = .data ∨ s.rx.rxState = .fcsCheck ∨ s.rx.rxState = .flagExpected →
    isDataCtrl s.rx.ctrl = true → s.rx.q ≠ none → s.rx.size.toNat ≤ s.cfg.scratchCap
  held : ∀ op, s.held = some op → op.frames ≠ []

/-- A run that never stops: however many steps are taken, there is a next state. -/
def SafeRun (s : State) : Prop := ∀ n, ∃ t, Sys2Proof.core.run n s = .next t

/-- Two states that agree on everything but decoder-context fields that no rule reads before writing them: each field is
compared only in the FSM states that come after it is written and before it is read for the last time (R24-R29, R270). -/
structure Agree (s t : State) : Prop where
  reg : s.reg = t.reg
  uaCount : s.uaCount = t.uaCount
  dmCount : s.dmCount = t.dmCount
  rxDropCount : s.rxDropCount = t.rxDropCount
  disc0Pending : s.disc0Pending = t.disc0Pending
  muxEn : s.muxEn = t.muxEn
  held : s.held = t.held
  cfg : s.cfg = t.cfg
  env : s.env = t.env
  out : s.out = t.out
  rxState : s.rx.rxState = t.rx.rxState
  /-- Written at the address byte (R161). -/
  header : s.rx.rxState ≠ .waitingAddress → s.rx.rxState ≠ .unused7 →
    s.rx.addr = t.rx.addr ∧ s.rx.q = t.rx.q ∧ s.rx.valid = t.rx.valid
  /-- Started at the address byte, last read at the FCS check (R161, R169). -/
  fcs : s.rx.rxState ≠ .waitingAddress → s.rx.rxState ≠ .flagExpected → s.rx.rxState ≠ .unused7 → s.rx.fcs = t.rx.fcs
  /-- Written at the control byte (R163). -/
  ctrl : s.rx.rxState ≠ .waitingAddress → s.rx.rxState ≠ .cmd → s.rx.rxState ≠ .unused7 → s.rx.ctrl = t.rx.ctrl
  /-- Written at the first length byte of a data frame (R164). -/
  size : s.rx.rxState = .lenExt ∨ s.rx.rxState = .data ∨
      (s.rx.rxState = .fcsCheck ∨ s.rx.rxState = .flagExpected) ∧ isDataCtrl s.rx.ctrl = true →
    s.rx.size = t.rx.size
  /-- Written at the first length byte, last read in DATA (R164, R167, R168). -/
  cnt : s.rx.rxState = .lenExt ∨ s.rx.rxState = .data → s.rx.cnt = t.rx.cnt
  /-- Both scratch buffers are in canonical form, so that a byte written reads back. -/
  bufForm : Memory.wf s.rx.buf ∧ Memory.wf t.rx.buf
  /-- The bytes a kept frame has written so far (R168). -/
  bufSoFar : s.rx.rxState = .lenExt ∨ s.rx.rxState = .data → s.rx.q ≠ none → ∀ i < s.rx.cnt.toNat, s.rx.buf.read i = t.rx.buf.read i
  /-- The bytes a delivery reads (R170). -/
  bufAll : s.rx.rxState = .fcsCheck ∨ s.rx.rxState = .flagExpected → isDataCtrl s.rx.ctrl = true → s.rx.q ≠ none →
    ∀ i < s.rx.size.toNat, s.rx.buf.read i = t.rx.buf.read i

/-- Two outcomes that cannot be told apart: both go on with states that agree, or both stop for the same reason. -/
def AgreeOutcome : Result → Result → Prop
  | .next s, .next t => Agree s t
  | .fault a, .fault b => a = b
  | .refused a, .refused b => a = b
  | _, _ => False

/-- The event an RX step records, if any: at most one, in the order of R243. `s` is the state the step acts on. -/
def expectedEvent (b : Byte) (s : State) : Option Event :=
  if s.muxEn = true ∧ s.rx.rxState = .flagExpected then
    if b ≠ FLAG then some .framing
    else if s.rx.valid = false then some .fcs
    else if isDataCtrl s.rx.ctrl = true then
      match s.rx.q with
      | none => some .discard
      | some _ =>
        if addrDlci s.rx.addr ≠ 0 ∧ (s.chan (addrDlci s.rx.addr)).connected = false then some .unconnected
        else if s.env.answers.qFree < s.rx.size.toNat then some .qFull
        else none
    else if ftype s.rx.ctrl = typeSABM ∨ ftype s.rx.ctrl = typeDISC then
      if s.env.answers.txHiOk = true then none else some .replyDrop
    else if ftype s.rx.ctrl = typeUA ∨ ftype s.rx.ctrl = typeDM then none
    else some .otherCmd
  else none

/-- The instructions a host command word stands for (R91), as opposed to those of a control byte. -/
def isHostInstr : Instr → Bool
  | .ui _ | .uih _ | .sabm _ | .ua _ | .dm _ | .disc _ | .other _ => false
  | .sendCmd _ _ _ | .sendData _ _ | .cfgChan _ _ _ | .bindQueue _ _ _ | .setConn _ _ | .readChan _ | .readStatus
  | .ackDisc0 | .setMuxEn _ | .reservedOp0 | .reservedOpA | .reservedOpB | .reservedOpC | .reservedOpD | .reservedOpE
  | .reservedOpF => true

/-- The bits of a host word that its operation uses (R90): the op code and the fields R90 lists for it. -/
def hostUsedBits (w : HostWord) : HostWord :=
  match (w >>> 28).toNat with
  | 0x1 => 0xFFE000FF#32
  | 0x2 => 0xFFE00000#32
  | 0x3 => 0xFFD0FFFF#32
  | 0x4 => 0xFFD0FFFF#32
  | 0x5 => 0xFFD00000#32
  | 0x6 => 0xFFC00000#32
  | 0x9 => 0xF0100000#32
  | _ => 0xF0000000#32

end Sys2Proof.Safety
end

