-- ==== Sys2Proof/Certificates/Slice0/Obligations.lean ====
section
/-! DEFINITION. The statements for the provers. Each docstring names the rule of spec/ it formalises; `s.beginTurn rest a`
is the state a step acts on: the turn taken off the schedule, its answers `a` latched. -/

open Sys2Proof Sys2Proof.Machine Sys2Proof.Safety

/-! ## Encodings -/

/-- R83, R90, R91, R96: decoding what the encoder writes gives back every well-formed instruction, with every operand.
The control-byte values are PRESUMED (log 15). -/
def Obligations.DecodeOfEncodeIsIdentity : Prop :=
  ∀ i : Instr, i.wf = true → decode (encode i) = i

/-- R83, R93(a), R96: a control byte decodes by its type alone, the six named types first and OTHER last, with P/F as the
operand; the control bytes are in one-to-one correspondence with the well-formed frame instructions; and every code, of
either space, decodes to a well-formed instruction.
The control-byte values are PRESUMED (log 15). -/
def Obligations.EveryCodeDecodesToAWellFormedInstruction : Prop :=
  (∀ c : Byte, decodeCtrl c =
    if c &&& 0xEF#8 = 0x03#8 then .ui (c.getLsbD 4)
    else if c &&& 0xEF#8 = 0xEF#8 then .uih (c.getLsbD 4)
    else if c &&& 0xEF#8 = 0x2F#8 then .sabm (c.getLsbD 4)
    else if c &&& 0xEF#8 = 0x63#8 then .ua (c.getLsbD 4)
    else if c &&& 0xEF#8 = 0x0F#8 then .dm (c.getLsbD 4)
    else if c &&& 0xEF#8 = 0x43#8 then .disc (c.getLsbD 4)
    else .other c) ∧
  (∀ c : Byte, encode (decodeCtrl c) = .ctrl c) ∧ (∀ c : Code, (decode c).wf = true)

/-- R90, R93(e): two host words that agree on the op code and on the fields the operation uses are the same instruction. -/
def Obligations.HostWordBitsNotUsedAreIgnored : Prop :=
  ∀ w v : HostWord, w &&& hostUsedBits w = v &&& hostUsedBits w → decodeHost w = decodeHost v

/-- R83, R90, R91: a few codes, written out from the tables, decode to the instruction they stand for.
The control-byte values are PRESUMED (log 15). -/
def Obligations.SampleCodesDecode : Prop :=
  decodeCtrl 0b00111111#8 = .sabm true ∧ decodeCtrl 0b01010011#8 = .disc true ∧ decodeCtrl 0b11101111#8 = .uih false ∧
  decodeCtrl 0b11101001#8 = .other 0xE9#8 ∧
  decodeHost 0b0001_000000_1_0_0000_0000000000111111#32 = .sendCmd 0 true 0x3F#8 ∧
  decodeHost 0b0011_000011_0_0_1111_0000000000100000#32 = .cfgChan 3 .uih 32 ∧
  decodeHost 0b0100_000011_0_1_0000_0000000000000111#32 = .bindQueue 3 true 7 ∧
  decodeHost 0b1001_000000_0_1_0000_0000000000000000#32 = .setMuxEn true ∧
  decodeHost 0b1010_000000_0_0_0000_0000000000000000#32 = .reservedOpA

/-! ## CRC engine -/

/-- R120: the table is the bit-reflected CRC-8 of the generator, and a bijection.
The table is PRESUMED (log 15). -/
def Obligations.CrcTableIsGeneratedAndBijective : Prop :=
  (∀ i : Byte, crcT i = crcGenerate 8 i) ∧ (∀ v : Byte, ∃ i : Byte, crcT i = v) ∧ (∀ i j : Byte, crcT i = crcT j → i = j)

/-- R126: exactly the computed FCS verifies. -/
def Obligations.VerifyAcceptsExactlyTheComputedFcs : Prop :=
  ∀ (x : List Byte) (r : Byte), crcVerify x r = true ↔ r = crcCompute x

/-- R127: a one-bit change of a covered byte changes the FCS, and a one-bit change of a good FCS is refused. Both speak of the
byte sequence and the FCS alone: that the frame boundaries stay where they were is the rule's condition on a whole frame. -/
def Obligations.SingleBitChangesAreDetected : Prop :=
  (∀ (x : List Byte) (i j : Nat), i < x.length → j < 8 → crcCompute (flipAt x i j) ≠ crcCompute x) ∧
  (∀ (x : List Byte) (r : Byte) (j : Nat), j < 8 → crcVerify x r = true → crcVerify x (flipBit r j) = false)

/-! ## Frame encoder -/

/-- R81, R140: the DLCI and the CR bit of an encoded address are the ones encoded, and EA is 1. -/
def Obligations.AddressByteCarriesDlciAndCr : Prop :=
  ∀ (d : Dlci) (cr : Bool), addrDlci (encAddr d cr) = d ∧ addrCr (encAddr d cr) = cr ∧ eaBit (encAddr d cr) = true ∧
    dcDlci (addrDc (encAddr d cr)) = d ∧ dcCr (addrDc (encAddr d cr)) = cr

/-- R86, R141: the receiver assembles from an encoded length field the length that was encoded. -/
def Obligations.LengthFieldRoundTrip : Prop :=
  ∀ n : Nat, n ≤ 32767 →
    (n ≤ 127 → ∃ b, encLen n = [b] ∧ eaBit b = true ∧ (lenFirst b).toNat = n) ∧
    (127 < n → ∃ b1 b2, encLen n = [b1, b2] ∧ eaBit b1 = false ∧ (lenSecond (lenFirst b1) b2).toNat = n)

/-- R142, R143: the layout of both frames, byte by byte.
The control-byte values are PRESUMED (log 15). -/
def Obligations.FrameLayouts : Prop :=
  (∀ (d : Dlci) (cr : Bool) (c : Byte),
    encodeCmd d cr c = [0xF9#8, encAddr d cr, c, crcCompute [encAddr d cr, c], 0xF9#8]) ∧
  (∀ (d : Dlci) (cr : Bool) (p : List Byte),
    encodeData d cr .ui p =
      [0xF9#8, encAddr d cr, 0x03#8] ++ encLen p.length ++ p ++
        [crcCompute ([encAddr d cr, 0x03#8] ++ encLen p.length ++ p), 0xF9#8] ∧
    encodeData d cr .uih p =
      [0xF9#8, encAddr d cr, 0xEF#8] ++ encLen p.length ++ p ++ [crcCompute ([encAddr d cr, 0xEF#8] ++ encLen p.length), 0xF9#8])

/-- R146: the segments are the payload cut in order: every segment but the last has `mtu` bytes, the last 1 to `mtu`, and an
empty payload is one empty segment. -/
def Obligations.SegmentsCutThePayload : Prop :=
  ∀ (p : List Byte) (mtu : Nat), 1 ≤ mtu →
    (segments p mtu).flatten = p ∧
    (∀ seg ∈ (segments p mtu).dropLast, seg.length = mtu) ∧
    (p = [] → segments p mtu = [[]]) ∧
    (p ≠ [] → ∃ seg, (segments p mtu).getLast? = some seg ∧ 1 ≤ seg.length ∧ seg.length ≤ mtu)

/-! ## Reset, schedule, invariant -/

/-- R270: what reset leaves, as far as the spec gives the values. -/
def Obligations.ResetLeavesTheStatedValues : Prop :=
  State.reset.rx.rxState = .waitingAddress ∧
  (∀ d : Dlci, State.reset.chan d = { connected := false, mode := .uih, mtu := 0, queue := none }) ∧
  State.reset.uaCount = 0 ∧ State.reset.dmCount = 0 ∧ State.reset.rxDropCount = 0 ∧
  State.reset.disc0Pending = false ∧ State.reset.muxEn = false

/-- R270, R271: the reset input puts the block at its reset values whatever was in progress, and resets neither the
environment nor what was already put out. The values of the decoder-context fields that R270 leaves unspecified, and that an
operation holding the port vanishes without a status, are the model's choices (log 3, log 4, log 8). -/
def Obligations.ResetInputKeepsTheEnvironment : Prop :=
  ∀ (s : State) (rest : List Turn), s.env.turns = .reset :: rest →
    step s = .next { State.reset with cfg := s.cfg, env := { s.env with turns := rest }, out := s.out }

/-- R255: with nothing scheduled, or on a host turn with nothing to do, all state is retained.
That a host turn with nothing to do is idle is the model's reading (log 14). -/
def Obligations.IdleKeepsTheState : Prop :=
  (∀ s : State, s.env.turns = [] → step s = .next s) ∧
  (∀ (s : State) (a : Answers) (rest : List Turn), s.env.turns = .host a :: rest → s.held = none → s.env.hostOps = [] →
    step s = .next (s.beginTurn rest a))

/-- R23, R32, R42: the invariant holds at reset. -/
def Obligations.ResetMeetsTheInvariant : Prop := Inv State.reset

/-- R23, R32, R42: every step of every kind keeps the invariant. -/
def Obligations.EveryStepKeepsTheInvariant : Prop :=
  ∀ s t : State, Inv s → step s = .next t → Inv t

/-- R240: no RX byte and no host operation makes the block stop: from a state that meets the invariant every step answers a
next state, never a fault and never a refusal. -/
def Obligations.NoStepEverStops : Prop :=
  ∀ s : State, Inv s → ∃ t, step s = .next t

/-- R270, R24-R29: no behaviour depends on the decoder-context fields whose reset value is unspecified. Two states that
differ only in fields not yet written go on in step for step agreement, with the same outputs, or stop alike. -/
def Obligations.UnspecifiedFieldsNeverMatter : Prop :=
  ∀ s t : State, Agree s t → AgreeOutcome (step s) (step t)

/-- R270: after reset, a decoder context with any other values in its unspecified fields agrees with the model's.
The model's own values are its choice (log 3, log 4). -/
def Obligations.AnyResetValuesAgree : Prop :=
  ∀ (rx : Decoder) (env : Env), rx.rxState = .waitingAddress → Memory.wf rx.buf →
    Agree { State.reset with rx := rx, env := env } { State.reset with env := env }

/-- R12, R90, R160, R171: the three moments at which a step runs an instruction: a control byte arrives in CMD, the closing
flag of a valid frame arrives, a host operation is issued on the free port.
That one instruction acts at both moments of its frame is the model's choice (log 11). -/
def Obligations.StepRunsTheDecodedInstruction : Prop :=
  (∀ (s : State) (c : Byte) (a : Answers) (rest : List Turn), s.env.turns = .rx c a :: rest → s.muxEn = true →
    s.rx.rxState = .cmd → step s = exec (decodeCtrl c) (s.beginTurn rest a)) ∧
  (∀ (s : State) (a : Answers) (rest : List Turn), s.env.turns = .rx 0xF9#8 a :: rest → s.muxEn = true →
    s.rx.rxState = .flagExpected → s.rx.valid = true → step s = exec (decodeCtrl s.rx.ctrl) (s.beginTurn rest a)) ∧
  (∀ (s : State) (a : Answers) (rest : List Turn) (op : HostCmd) (ops : List HostCmd), s.env.turns = .host a :: rest →
    s.held = none → s.env.hostOps = op :: ops →
    step s = exec (decodeHost op.word)
      { s with env := { turns := rest, hostOps := ops, answers := a, payload := op.payload } })

/-- Log 6, log 7 (R160, R60(a)): the model's two stops. A byte at `rx_state = 7` with multiplexing on, and an access to the
scratch buffer at an index of SCRATCH_CAP or more, in DATA and in a delivery. The spec's R23 and R42 exclude all three; the
stops are the model's choice. -/
def Obligations.TheTwoStops : Prop :=
  (∀ (s : State) (b : Byte) (a : Answers) (rest : List Turn), s.env.turns = .rx b a :: rest → s.muxEn = true →
    s.rx.rxState = .unused7 → step s = .fault .rxStateUnused) ∧
  (∀ (s : State) (b : Byte) (a : Answers) (rest : List Turn), s.env.turns = .rx b a :: rest → s.muxEn = true →
    s.rx.rxState = .data → s.rx.q ≠ none → s.cfg.scratchCap ≤ s.rx.cnt.toNat → step s = .fault .scratchOutOfRange) ∧
  (∀ (i : Instr) (pf : Bool) (s : State), i = .ui pf ∨ i = .uih pf → s.rx.rxState = .flagExpected → s.rx.q ≠ none →
    (addrDlci s.rx.addr = 0 ∨ (s.chan (addrDlci s.rx.addr)).connected = true) →
    s.cfg.scratchCap < min s.rx.size.toNat s.env.answers.qFree → exec i s = .fault .scratchOutOfRange)

/-! ## Receive state machine -/

/-- R160: while multiplexing is off, a byte goes to the raw handler and nothing else changes. -/
def Obligations.BytesGoRawWhileMuxIsOff : Prop :=
  ∀ (s : State) (b : Byte) (a : Answers) (rest : List Turn), s.env.turns = .rx b a :: rest → s.muxEn = false →
    step s = .next { s with
      env := { s.env with turns := rest, answers := a }
      out := { s.out with rawOut := s.out.rawOut ++ [b] } }

/-- R161: an address byte starts a frame. -/
def Obligations.AddressByteStartsAFrame : Prop :=
  ∀ (s : State) (b : Byte) (a : Answers) (rest : List Turn), s.env.turns = .rx b a :: rest → s.muxEn = true →
    s.rx.rxState = .waitingAddress → b ≠ 0xF9#8 → b.getLsbD 0 = true →
    step s = .next { s with
      env := { s.env with turns := rest, answers := a }
      rx := { s.rx with addr := b, fcs := upd 0xFF#8 b, q := (s.chan (b.extractLsb' 2 6)).queue, valid := true,
                        rxState := .cmd } }

/-- R162: a flag, or a byte with EA = 0, is ignored in WAITING_ADDRESS. -/
def Obligations.FlagsAndNonAddressesAreIgnored : Prop :=
  ∀ (s : State) (b : Byte) (a : Answers) (rest : List Turn), s.env.turns = .rx b a :: rest → s.muxEn = true →
    s.rx.rxState = .waitingAddress → b = 0xF9#8 ∨ b.getLsbD 0 = false → step s = .next (s.beginTurn rest a)

/-- R163: in CMD the control byte is captured and folded, and its type alone, P/F ignored, selects the next state.
The control-byte values are PRESUMED (log 15). -/
def Obligations.ControlByteIsCapturedInCmd : Prop :=
  ∀ (c : Byte) (s : State), s.rx.rxState = .cmd →
    exec (decodeCtrl c) s = .next { s with rx := { s.rx with
      ctrl := c, fcs := upd s.rx.fcs c,
      rxState := if c &&& 0xEF#8 = 0x03#8 ∨ c &&& 0xEF#8 = 0xEF#8 then .len else .fcsCheck } }

/-- R164, R166: the first length byte. With EA = 1 the length is final: an unknown destination or `size > mtu` clears `q`,
and size 0 goes straight to FCS_CHECK. -/
def Obligations.FirstLengthByte : Prop :=
  ∀ (s : State) (b : Byte) (a : Answers) (rest : List Turn), s.env.turns = .rx b a :: rest → s.muxEn = true →
    s.rx.rxState = .len →
    let n : Len15 := (b >>> 1).setWidth 15
    (b.getLsbD 0 = false →
      step s = .next { s with
        env := { s.env with turns := rest, answers := a }
        rx := { s.rx with fcs := upd s.rx.fcs b, size := n, cnt := 0, rxState := .lenExt } }) ∧
    (b.getLsbD 0 = true →
      step s = .next { s with
        env := { s.env with turns := rest, answers := a }
        rx := { s.rx with
          fcs := upd s.rx.fcs b, size := n, cnt := 0
          q := if s.rx.q = none ∨ (s.chan (s.rx.addr.extractLsb' 2 6)).mtu.toNat < n.toNat then none else s.rx.q
          rxState := if n = 0 then .fcsCheck else .data } })

/-- R165, R166: the second length byte carries the high eight bits, and the length is final. -/
def Obligations.SecondLengthByte : Prop :=
  ∀ (s : State) (b : Byte) (a : Answers) (rest : List Turn), s.env.turns = .rx b a :: rest → s.muxEn = true →
    s.rx.rxState = .lenExt →
    let n : Len15 := s.rx.size ||| (b.setWidth 15 <<< 7)
    step s = .next { s with
      env := { s.env with turns := rest, answers := a }
      rx := { s.rx with
        fcs := upd s.rx.fcs b, size := n
        q := if s.rx.q = none ∨ (s.chan (s.rx.addr.extractLsb' 2 6)).mtu.toNat < n.toNat then none else s.rx.q
        rxState := if n = 0 then .fcsCheck else .data } }

/-- R167: a payload byte of a discarded frame is counted and lost; neither the buffer nor the FCS is written. -/
def Obligations.PayloadByteOfADiscardedFrame : Prop :=
  ∀ (s : State) (b : Byte) (a : Answers) (rest : List Turn), s.env.turns = .rx b a :: rest → s.muxEn = true →
    s.rx.rxState = .data → s.rx.q = none →
    step s = .next { s with
      env := { s.env with turns := rest, answers := a }
      rx := { s.rx with cnt := s.rx.cnt + 1, rxState := if s.rx.cnt + 1 = s.rx.size then .fcsCheck else .data } }

/-- R168: a payload byte of a kept frame is written to `buf[cnt]`, every other byte of the buffer stays, and the FCS covers
the byte exactly if the received control byte is UI.
The control-byte values are PRESUMED (log 15). -/
def Obligations.PayloadByteOfAKeptFrame : Prop :=
  ∀ (s : State) (b : Byte) (a : Answers) (rest : List Turn), s.env.turns = .rx b a :: rest → s.muxEn = true →
    s.rx.rxState = .data → s.rx.q ≠ none → s.rx.cnt.toNat < s.cfg.scratchCap → Memory.wf s.rx.buf →
    ∃ buf : Memory, Memory.wf buf ∧
      (∀ i, buf.read i = if i = s.rx.cnt.toNat then b else s.rx.buf.read i) ∧
      step s = .next { s with
        env := { s.env with turns := rest, answers := a }
        rx := { s.rx with
          buf := buf
          fcs := if s.rx.ctrl &&& 0xEF#8 = 0x03#8 then upd s.rx.fcs b else s.rx.fcs
          cnt := s.rx.cnt + 1
          rxState := if s.rx.cnt + 1 = s.rx.size then .fcsCheck else .data } }

/-- R169: the received FCS is folded, and anything but the residue 0xCF marks the frame invalid. -/
def Obligations.FcsByteIsChecked : Prop :=
  ∀ (s : State) (b : Byte) (a : Answers) (rest : List Turn), s.env.turns = .rx b a :: rest → s.muxEn = true →
    s.rx.rxState = .fcsCheck →
    step s = .next { s with
      env := { s.env with turns := rest, answers := a }
      rx := { s.rx with
        fcs := upd s.rx.fcs b
        valid := if upd s.rx.fcs b ≠ 0xCF#8 then false else s.rx.valid
        rxState := .flagExpected } }

/-- R172: a byte other than the flag in FLAG_EXPECTED records E_FRAMING, a flag that closes an invalid frame E_FCS; nothing
else happens, and the byte is consumed. -/
def Obligations.BadClosingIsDiscarded : Prop :=
  ∀ (s : State) (b : Byte) (a : Answers) (rest : List Turn), s.env.turns = .rx b a :: rest → s.muxEn = true →
    s.rx.rxState = .flagExpected → b ≠ 0xF9#8 ∨ s.rx.valid = false →
    step s = .next { s with
      env := { s.env with turns := rest, answers := a }
      rx := { s.rx with rxState := .waitingAddress }
      out := { s.out with events := s.out.events ++ [if b ≠ 0xF9#8 then .framing else .fcs] } }

/-- R170: what UI and UIH do at the closing flag of a valid frame: discard without a destination, discard on an unconnected
data channel, or push what fits and count the rest, DLCI 0 whether or not it is connected. -/
def Obligations.DataFrameIsDelivered : Prop :=
  ∀ (i : Instr) (pf : Bool) (s : State), i = .ui pf ∨ i = .uih pf → s.rx.rxState = .flagExpected →
    let d := s.rx.addr.extractLsb' 2 6
    let size := s.rx.size.toNat
    let k := min size s.env.answers.qFree
    let rx1 := { s.rx with rxState := .waitingAddress }
    (s.rx.q = none →
      exec i s = .next { s with rx := rx1, out := { s.out with events := s.out.events ++ [.discard] } }) ∧
    (∀ h, s.rx.q = some h → ¬ (d = 0 ∨ (s.chan d).connected = true) →
      exec i s = .next { s with rx := rx1, out := { s.out with events := s.out.events ++ [.unconnected] } }) ∧
    (∀ h, s.rx.q = some h → d = 0 ∨ (s.chan d).connected = true → k ≤ s.cfg.scratchCap →
      exec i s = .next { s with
        rx := rx1
        rxDropCount := s.rxDropCount + BitVec.ofNat 32 (size - k)
        out := { s.out with
          pushed := s.out.pushed ++ (List.range k).map fun j => (h, s.rx.buf.read j)
          events := if k < size then s.out.events ++ [.qFull] else s.out.events } })

/-! ## Connection manager -/

/-- R191, R171, R196: SABM connects its channel and is answered UA|PF with the CR bit it came with; nothing else changes.
The control-byte values are PRESUMED (log 15). -/
def Obligations.SabmConnectsAndAnswersUa : Prop :=
  ∀ (pf : Bool) (s : State), s.rx.rxState = .flagExpected →
    let d := s.rx.addr.extractLsb' 2 6
    let s1 := { s.setChan d { s.chan d with connected := true } with rx := { s.rx with rxState := .waitingAddress } }
    exec (.sabm pf) s = .next { s1 with
      out := if s.env.answers.txHiOk = true
        then { s.out with txHi := s.out.txHi ++ [encodeCmd d (s.rx.addr.getLsbD 1) 0x73#8] }
        else { s.out with events := s.out.events ++ [.replyDrop] } }

/-- R190, R171, R196: DISC disconnects its channel and is answered UA|PF if it was connected, DM|PF if not; on DLCI 0 it
sets `disc0_pending` in both cases; nothing else changes.
The control-byte values are PRESUMED (log 15). -/
def Obligations.DiscDisconnectsAndAnswers : Prop :=
  ∀ (pf : Bool) (s : State), s.rx.rxState = .flagExpected →
    let d := s.rx.addr.extractLsb' 2 6
    let s1 := { s.setChan d { s.chan d with connected := false } with rx := { s.rx with rxState := .waitingAddress } }
    let c2 : Byte := if (s.chan d).connected = true then 0x73#8 else 0x1F#8
    exec (.disc pf) s = .next { s1 with
      disc0Pending := if d = 0 then true else s.disc0Pending
      out := if s.env.answers.txHiOk = true
        then { s.out with txHi := s.out.txHi ++ [encodeCmd d (s.rx.addr.getLsbD 1) c2] }
        else { s.out with events := s.out.events ++ [.replyDrop] } }

/-- R192, R193: UA and DM are counted, each in its own counter, for every DLCI and either CR bit, with no reply. -/
def Obligations.UaAndDmAreCounted : Prop :=
  ∀ (pf : Bool) (s : State), s.rx.rxState = .flagExpected →
    exec (.ua pf) s = .next { s with rx := { s.rx with rxState := .waitingAddress }, uaCount := s.uaCount + 1 } ∧
    exec (.dm pf) s = .next { s with rx := { s.rx with rxState := .waitingAddress }, dmCount := s.dmCount + 1 }

/-- R194: any other frame type is discarded with no reply. -/
def Obligations.OtherFrameTypesAreDiscarded : Prop :=
  ∀ (c : Byte) (s : State), s.rx.rxState = .flagExpected →
    exec (.other c) s = .next { s with
      rx := { s.rx with rxState := .waitingAddress }
      out := { s.out with events := s.out.events ++ [.otherCmd] } }

/-- R197: a SABM on a connected channel, with TX_HI accepting, changes no state but the FSM's return to WAITING_ADDRESS, and
sends UA|PF.
The control-byte values are PRESUMED (log 15). -/
def Obligations.SabmIsIdempotent : Prop :=
  ∀ (pf : Bool) (s : State), s.rx.rxState = .flagExpected → s.env.answers.txHiOk = true →
    (s.chan (s.rx.addr.extractLsb' 2 6)).connected = true →
    exec (.sabm pf) s = .next { s with
      rx := { s.rx with rxState := .waitingAddress }
      out := { s.out with
        txHi := s.out.txHi ++ [encodeCmd (s.rx.addr.extractLsb' 2 6) (s.rx.addr.getLsbD 1) 0x73#8] } }

/-! ## Host operations -/

/-- R211, R210: op code 1 is SEND_CMD, with the control byte in the low byte of its argument. It offers the command frame to
TX_HI; accepted, the operation ends with OK; not accepted, it holds the port. No other state changes.
That the issuing step carries the first offer is the model's reading (log 13). -/
def Obligations.SendCmdOffersToTxHi : Prop :=
  (∀ w : HostWord, w.extractLsb' 28 4 = 0x1#4 →
    decodeHost w = .sendCmd (w.extractLsb' 22 6) (w.getLsbD 21) (w.extractLsb' 0 8)) ∧
  (∀ (d : Dlci) (cr : Bool) (c : Byte) (s : State),
    (s.env.answers.txAccept = true →
      exec (.sendCmd d cr c) s = .next { s with
        held := none
        out := { s.out with
          txHi := s.out.txHi ++ [encodeCmd d cr c]
          replies := s.out.replies ++ [{ status := .ok, data := .none }] } }) ∧
    (s.env.answers.txAccept = false →
      exec (.sendCmd d cr c) s = .next { s with
        held := some { queue := .hi, frames := [encodeCmd d cr c], reply := { status := .ok, data := .none } } }))

/-- R212, R213: op code 2 is SEND_DATA. With MTU 0 it returns NOT_READY and sends nothing. Otherwise its first frame is offered, to TX_HI
on DLCI 0 and to TX_LO on a data channel; accepted, the rest is held, and after the last frame it returns OK and the number
of bytes; not accepted, all frames are held.
That the issuing step carries the first offer is the model's reading (log 13). -/
def Obligations.SendDataOffersItsFirstFrame : Prop :=
  (∀ w : HostWord, w.extractLsb' 28 4 = 0x2#4 → decodeHost w = .sendData (w.extractLsb' 22 6) (w.getLsbD 21)) ∧
  (∀ (d : Dlci) (cr : Bool) (s : State),
    ((s.chan d).mtu = 0 →
      exec (.sendData d cr) s = .next { s with
        out := { s.out with replies := s.out.replies ++ [{ status := .notReady, data := .none }] } }) ∧
    ((s.chan d).mtu ≠ 0 →
      let q : TxQueue := if d = 0 then .hi else .lo
      let r : HostReply := { status := .ok, data := .accepted s.env.payload.length }
      ∃ f fs, (segments s.env.payload (s.chan d).mtu.toNat).map (encodeData d cr (s.chan d).mode) = f :: fs ∧
        (s.env.answers.txAccept = false →
          exec (.sendData d cr) s = .next { s with held := some { queue := q, frames := f :: fs, reply := r } }) ∧
        (s.env.answers.txAccept = true →
          exec (.sendData d cr) s = .next { s with
            held := if fs = [] then none else some { queue := q, frames := fs, reply := r }
            out := { s.out with
              txHi := if d = 0 then s.out.txHi ++ [f] else s.out.txHi
              txLo := if d = 0 then s.out.txLo else s.out.txLo ++ [f]
              replies := if fs = [] then s.out.replies ++ [r] else s.out.replies } })))

/-- R212, R213, R71: issued on the free port and accepted at every host turn, a SEND_DATA puts every segment of its payload,
framed and in order, on its one queue, one frame a step, and after the last one returns OK with the payload's length.
That the issuing step carries the first offer, that one turn accepts one frame, and that the step which accepts the last
frame returns the status, is the model's reading (log 13); that a host turn issues only on a free port is log 10's. -/
def Obligations.SendDataSendsEverySegmentInOrder : Prop :=
  ∀ (s : State) (w : HostWord) (p : List Byte) (ops : List HostCmd) (d : Dlci) (cr : Bool) (a : Answers) (rest : List Turn),
    s.held = none → s.env.hostOps = { word := w, payload := p } :: ops → decodeHost w = .sendData d cr →
    (s.chan d).mtu ≠ 0 → a.txAccept = true →
    let frames := (segments p (s.chan d).mtu.toNat).map (encodeData d cr (s.chan d).mode)
    s.env.turns = List.replicate frames.length (.host a) ++ rest →
    Sys2Proof.core.run frames.length s = Host.Outcome.next (σ := State) { s with
      env := { turns := rest, hostOps := ops, answers := a, payload := p }
      out := { s.out with
        txHi := if d = 0 then s.out.txHi ++ frames else s.out.txHi
        txLo := if d = 0 then s.out.txLo else s.out.txLo ++ frames
        replies := s.out.replies ++ [{ status := .ok, data := .accepted p.length }] } }

/-- R65, R210, R213: an operation that holds the port waits on a host turn that brings no acceptance, and no other operation
is issued; on acceptance its next frame goes out, and after the last one it returns.
That a host turn goes on with the held operation, and issues another only on a free port, is the model's reading (log 10).
That a turn without acceptance leaves the offer held, that one turn accepts one frame, and that the step which accepts the
last frame returns the status, is the model's reading (log 13). -/
def Obligations.HeldSendWaitsForAcceptance : Prop :=
  ∀ (s : State) (a : Answers) (rest : List Turn) (op : Held) (f : Frame) (fs : List Frame),
    s.env.turns = .host a :: rest → s.held = some op → op.frames = f :: fs →
    (a.txAccept = false → step s = .next (s.beginTurn rest a)) ∧
    (a.txAccept = true →
      step s = .next { s.beginTurn rest a with
        held := if fs = [] then none else some { op with frames := fs }
        out := { s.out with
          txHi := if op.queue = .hi then s.out.txHi ++ [f] else s.out.txHi
          txLo := if op.queue = .hi then s.out.txLo else s.out.txLo ++ [f]
          replies := if fs = [] then s.out.replies ++ [op.reply] else s.out.replies } })

/-- R213, R65: while a send holds the port, RX steps go on exactly as without it. -/
def Obligations.RxStepsGoOnWhileASendHolds : Prop :=
  ∀ (s : State) (b : Byte) (a : Answers) (rest : List Turn) (h : Option Held), s.env.turns = .rx b a :: rest →
    step { s with held := h } =
      match step s with
      | .next t => .next { t with held := h }
      | .fault r => .fault r
      | .refused r => .refused r

/-- R214: op code 3 is CFG_CHAN. It refuses an MTU above SCRATCH_CAP and changes nothing; otherwise it writes mode and MTU of
its channel, MTU 0 included, and nothing else. -/
def Obligations.CfgChanSetsModeAndMtu : Prop :=
  (∀ w : HostWord, w.extractLsb' 28 4 = 0x3#4 →
    decodeHost w = .cfgChan (w.extractLsb' 22 6) (if w.getLsbD 20 = true then .ui else .uih) (w.extractLsb' 0 16)) ∧
  (∀ (d : Dlci) (m : Mode) (mtu : Mtu) (s : State),
    (s.cfg.scratchCap < mtu.toNat →
      exec (.cfgChan d m mtu) s = .next { s with
        out := { s.out with replies := s.out.replies ++ [{ status := .mtuRange, data := .none }] } }) ∧
    (mtu.toNat ≤ s.cfg.scratchCap →
      exec (.cfgChan d m mtu) s = .next { s.setChan d { s.chan d with mode := m, mtu := mtu } with
        out := { s.out with replies := s.out.replies ++ [{ status := .ok, data := .none }] } }))

/-- R216: op code 4 is BIND_QUEUE. It sets or clears its channel's queue and nothing else. -/
def Obligations.BindQueueSetsTheQueue : Prop :=
  (∀ w : HostWord, w.extractLsb' 28 4 = 0x4#4 →
    decodeHost w = .bindQueue (w.extractLsb' 22 6) (w.getLsbD 20) (w.extractLsb' 0 16)) ∧
  (∀ (d : Dlci) (bind : Bool) (h : Handle) (s : State),
    exec (.bindQueue d bind h) s =
      .next { s.setChan d { s.chan d with queue := if bind = true then some h else none } with
        out := { s.out with replies := s.out.replies ++ [{ status := .ok, data := .none }] } })

/-- R218: op code 5 is SET_CONN. It writes its channel's connected flag and nothing else. -/
def Obligations.SetConnSetsTheFlag : Prop :=
  (∀ w : HostWord, w.extractLsb' 28 4 = 0x5#4 → decodeHost w = .setConn (w.extractLsb' 22 6) (w.getLsbD 20)) ∧
  (∀ (d : Dlci) (v : Bool) (s : State),
    exec (.setConn d v) s = .next { s.setChan d { s.chan d with connected := v } with
      out := { s.out with replies := s.out.replies ++ [{ status := .ok, data := .none }] } })

/-- R4, R30-R33: a write to one registry entry is what a read of it gives back, and leaves the other 63 alone. -/
def Obligations.RegistryEntriesAreIndependent : Prop :=
  ∀ (s : State) (d e : Dlci) (c : Channel), (s.setChan d c).chan e = if e = d then c else s.chan e

/-- R219, R221: op codes 6 and 7 are the two reads. They return the record of the moment and change nothing. -/
def Obligations.ReadsReturnTheRecord : Prop :=
  (∀ w : HostWord, w.extractLsb' 28 4 = 0x6#4 → decodeHost w = .readChan (w.extractLsb' 22 6)) ∧
  (∀ w : HostWord, w.extractLsb' 28 4 = 0x7#4 → decodeHost w = .readStatus) ∧
  (∀ (d : Dlci) (s : State), exec (.readChan d) s = .next { s with
    out := { s.out with replies := s.out.replies ++ [{ status := .ok, data := .chan (s.chan d) }] } }) ∧
  (∀ s : State, exec .readStatus s = .next { s with
    out := { s.out with replies := s.out.replies ++ [
      { status := .ok
        data := .status
          { uaCount := s.uaCount, dmCount := s.dmCount, rxDropCount := s.rxDropCount, disc0Pending := s.disc0Pending,
            muxEn := s.muxEn, rxState := s.rx.rxState } }] } })

/-- R222: op code 8 is ACK_DISC0. It clears `disc0_pending` and nothing else. -/
def Obligations.AckDisc0ClearsTheSignal : Prop :=
  (∀ w : HostWord, w.extractLsb' 28 4 = 0x8#4 → decodeHost w = .ackDisc0) ∧
  (∀ s : State, exec .ackDisc0 s = .next { s with
    disc0Pending := false
    out := { s.out with replies := s.out.replies ++ [{ status := .ok, data := .none }] } })

/-- R223: op code 9 is SET_MUX_EN. It writes `mux_en`, restarts the decoder on a change from 0 to 1, and changes nothing
else. -/
def Obligations.SetMuxEnSwitchesTheInput : Prop :=
  (∀ w : HostWord, w.extractLsb' 28 4 = 0x9#4 → decodeHost w = .setMuxEn (w.getLsbD 20)) ∧
  (∀ (en : Bool) (s : State), exec (.setMuxEn en) s = .next { s with
    muxEn := en
    rx := if en = true ∧ s.muxEn = false then { s.rx with rxState := .waitingAddress } else s.rx
    out := { s.out with replies := s.out.replies ++ [{ status := .ok, data := .none }] } })

/-- R220: the op codes 0 and A to F are reserved. They return BAD_OP and change nothing. -/
def Obligations.ReservedOpCodesAnswerBadOp : Prop :=
  (∀ w : HostWord, w.extractLsb' 28 4 = 0x0#4 ∨ 0xA#4 ≤ w.extractLsb' 28 4 →
    decodeHost w ∈ [Instr.reservedOp0, .reservedOpA, .reservedOpB, .reservedOpC, .reservedOpD, .reservedOpE, .reservedOpF]) ∧
  (∀ (i : Instr) (s : State),
    i ∈ [Instr.reservedOp0, .reservedOpA, .reservedOpB, .reservedOpC, .reservedOpD, .reservedOpE, .reservedOpF] →
    exec i s = .next { s with
      out := { s.out with replies := s.out.replies ++ [{ status := .badOp, data := .none }] } })

/-- R210, R245: a host operation that returns a status other than OK has changed no state and sent no frame. -/
def Obligations.HostErrorsHaveNoEffect : Prop :=
  ∀ (i : Instr) (s t : State) (r : HostReply), isHostInstr i = true → exec i s = .next t →
    t.out.replies = s.out.replies ++ [r] → r.status ≠ .ok →
    t = { s with out := { s.out with replies := s.out.replies ++ [r] } }

/-! ## Whole-machine rules -/

/-- R41, R43, R250(b): a host turn writes no decoder context but the restart of `rx_state` by SET_MUX_EN, no counter, pushes
no byte, records no event, and can only clear `disc0_pending`. -/
def Obligations.HostTurnsKeepToTheirRights : Prop :=
  ∀ (s t : State) (a : Answers) (rest : List Turn), s.env.turns = .host a :: rest → step s = .next t →
    t.rx = { s.rx with rxState := t.rx.rxState } ∧
    (t.rx.rxState = s.rx.rxState ∨ t.rx.rxState = .waitingAddress ∧ s.muxEn = false ∧ t.muxEn = true) ∧
    t.uaCount = s.uaCount ∧ t.dmCount = s.dmCount ∧ t.rxDropCount = s.rxDropCount ∧
    (t.disc0Pending = s.disc0Pending ∨ t.disc0Pending = false) ∧ t.cfg = s.cfg ∧
    t.out.pushed = s.out.pushed ∧ t.out.rawOut = s.out.rawOut ∧ t.out.events = s.out.events ∧ t.env.turns = rest

/-- R43, R250(a): an RX turn writes no mode, MTU, queue binding or `mux_en`, holds and returns no host operation, sends
nothing on TX_LO, can only set `disc0_pending`, and touches the connected flag of no channel but the frame's. -/
def Obligations.RxTurnsKeepToTheirRights : Prop :=
  ∀ (s t : State) (b : Byte) (a : Answers) (rest : List Turn), s.env.turns = .rx b a :: rest → step s = .next t →
    (∀ d : Dlci, (t.chan d).mode = (s.chan d).mode ∧ (t.chan d).mtu = (s.chan d).mtu ∧
      (t.chan d).queue = (s.chan d).queue ∧
      ((t.chan d).connected ≠ (s.chan d).connected → d = s.rx.addr.extractLsb' 2 6)) ∧
    t.muxEn = s.muxEn ∧ t.held = s.held ∧ t.cfg = s.cfg ∧ (s.disc0Pending = true → t.disc0Pending = true) ∧
    t.out.txLo = s.out.txLo ∧ t.out.replies = s.out.replies ∧
    t.env = { s.env with turns := rest, answers := a }

/-- R30-R33: a registry field changes only by the operations the spec names: `mode` and `mtu` by CFG_CHAN, `queue` by
BIND_QUEUE, `connected` by SET_CONN or by the closing flag of a valid SABM or DISC frame on that DLCI (and all by reset).
The control-byte values are PRESUMED (log 15). -/
def Obligations.RegistryFieldsHaveOnlyTheirWriters : Prop :=
  ∀ (s t : State) (d : Dlci), step s = .next t → (∀ rest, s.env.turns ≠ .reset :: rest) →
    let issues (i : Instr) : Prop := ∃ a rest op ops, s.env.turns = .host a :: rest ∧ s.held = none ∧
      s.env.hostOps = op :: ops ∧ decodeHost op.word = i
    ((t.chan d).mode ≠ (s.chan d).mode ∨ (t.chan d).mtu ≠ (s.chan d).mtu →
      issues (.cfgChan d (t.chan d).mode (t.chan d).mtu)) ∧
    ((t.chan d).queue ≠ (s.chan d).queue → ∃ bind h, issues (.bindQueue d bind h)) ∧
    ((t.chan d).connected ≠ (s.chan d).connected → issues (.setConn d (t.chan d).connected) ∨
      ∃ a rest, s.env.turns = .rx 0xF9#8 a :: rest ∧ s.muxEn = true ∧ s.rx.rxState = .flagExpected ∧ s.rx.valid = true ∧
        s.rx.addr.extractLsb' 2 6 = d ∧
        s.rx.ctrl &&& 0xEF#8 = if (t.chan d).connected = true then 0x2F#8 else 0x43#8)

/-- R242, R243, R244: an RX step records at most one event, the one R243's order selects, and after it the FSM is in
WAITING_ADDRESS.
The control-byte values are PRESUMED (log 15). -/
def Obligations.EventsFollowThePrecedence : Prop :=
  ∀ (s t : State) (b : Byte) (a : Answers) (rest : List Turn), s.env.turns = .rx b a :: rest → step s = .next t →
    t.out.events = s.out.events ++ (expectedEvent b (s.beginTurn rest a)).toList ∧
    (expectedEvent b (s.beginTurn rest a) ≠ none → t.rx.rxState = .waitingAddress)

/-- R66, R70, R71: no step takes back or reorders what the block has put out: every output only grows at its end. -/
def Obligations.OutputsOnlyGrow : Prop :=
  ∀ s t : State, step s = .next t →
    s.out.txHi <+: t.out.txHi ∧ s.out.txLo <+: t.out.txLo ∧ s.out.pushed <+: t.out.pushed ∧
    s.out.rawOut <+: t.out.rawOut ∧ s.out.replies <+: t.out.replies ∧ s.out.events <+: t.out.events

/-- R28: `buf[i]` is written only by a DATA step with `cnt = i` while `q != none`: any other step but reset leaves what it
reads as. -/
def Obligations.ScratchBytesHaveOneWriter : Prop :=
  ∀ (s t : State) (i : Nat), step s = .next t → (∀ rest, s.env.turns ≠ .reset :: rest) →
    t.rx.buf.read i ≠ s.rx.buf.read i →
    (∃ b a rest, s.env.turns = .rx b a :: rest) ∧ s.muxEn = true ∧ s.rx.rxState = .data ∧ s.rx.q ≠ none ∧
      s.rx.cnt.toNat = i

/-! ## Headline results -/

/-- R148: the bytes of an encoded data frame, arriving uninterrupted at a decoder in WAITING_ADDRESS, push exactly its
payload, in order, to the channel's queue, and leave the FSM in WAITING_ADDRESS. -/
def Obligations.EncodedDataFramesAreDelivered : Prop :=
  ∀ (s : State) (d : Dlci) (cr : Bool) (mode : Mode) (p : List Byte) (h : Handle) (a : Answers) (rest : List Turn),
    Inv s → s.muxEn = true → s.rx.rxState = .waitingAddress → p.length ≤ (s.chan d).mtu.toNat →
    (s.chan d).queue = some h → d = 0 ∨ (s.chan d).connected = true → p.length ≤ a.qFree → encAddr d cr ≠ 0xF9#8 →
    s.env.turns = (encodeData d cr mode p).map (fun b => Turn.rx b a) ++ rest →
    ∃ t : State, Sys2Proof.core.run (encodeData d cr mode p).length s = Host.Outcome.next (σ := State) t ∧
      t.rx.rxState = .waitingAddress ∧ t.env.turns = rest ∧
      t.out = { s.out with pushed := s.out.pushed ++ p.map fun b => (h, b) } ∧
      t.reg = s.reg ∧ t.rxDropCount = s.rxDropCount ∧ t.uaCount = s.uaCount ∧ t.dmCount = s.dmCount ∧
      t.disc0Pending = s.disc0Pending ∧ t.muxEn = true

/-- R148, R173: the five bytes of an encoded command frame invoke the manager once, with its address and control byte, in a
state that differs from the first only in the decoder context and in what the environment has supplied.
The control-byte values are PRESUMED (log 15). -/
def Obligations.EncodedCommandFramesReachTheManager : Prop :=
  ∀ (s : State) (d : Dlci) (cr : Bool) (c : Byte) (a : Answers) (rest : List Turn),
    s.muxEn = true → s.rx.rxState = .waitingAddress → c &&& 0xEF#8 ≠ 0x03#8 → c &&& 0xEF#8 ≠ 0xEF#8 → encAddr d cr ≠ 0xF9#8 →
    s.env.turns = (encodeCmd d cr c).map (fun b => Turn.rx b a) ++ rest →
    ∃ s1 t : State, Sys2Proof.core.run 5 s = Host.Outcome.next (σ := State) t ∧ exec (decodeCtrl c) s1 = .next t ∧
      s1.rx.rxState = .flagExpected ∧ s1.rx.valid = true ∧ s1.rx.addr = encAddr d cr ∧ s1.rx.ctrl = c ∧
      t.rx.rxState = .waitingAddress ∧
      s1 = { s with rx := s1.rx, env := { s.env with turns := rest, answers := a } }

/-- R174: from any state other than WAITING_ADDRESS, with multiplexing on, the FSM is back in WAITING_ADDRESS after at most
32772 further RX steps, whatever the bytes are. -/
def Obligations.FsmResynchronises : Prop :=
  ∀ s : State, Inv s → s.muxEn = true → s.rx.rxState ≠ .waitingAddress → 32772 ≤ s.env.turns.length →
    (∀ x ∈ s.env.turns, ∃ b a, x = .rx b a) →
    ∃ (n : Nat) (t : State), n ≤ 32772 ∧ Sys2Proof.core.run n s = Host.Outcome.next (σ := State) t ∧
      t.rx.rxState = .waitingAddress
end

