-- ==== Sys2Proof/Laws/Crc.lean ====
section
/-! SUPPORT. The CRC table is a bijection, so an update loses nothing (R120, R126, R127). -/

namespace Sys2Proof.Machine

set_option maxRecDepth 20000 in
theorem crcT_injective : ∀ i j : Byte, crcT i = crcT j → i = j := by
  have h : ∀ i : Byte, ((List.range 256).map (BitVec.ofNat 8)).idxOf i = i.toNat ∧
      ((crcRowsLow ++ crcRowsHigh).flatten).idxOf (crcT i) = i.toNat := by decide
  intro i j hij
  have hi := (h i).2
  have hj := (h j).2
  rw [hij] at hi
  exact BitVec.eq_of_toNat_eq (hi.symm.trans hj)

theorem crcT_ff : crcT 0xFF#8 = crcResidue := by decide

/-- Distinct accumulators stay distinct under the same data byte. -/
theorem upd_injective_left (f g b : Byte) (h : upd f b = upd g b) : f = g := by
  simpa [BitVec.xor_assoc] using congrArg (· ^^^ b) (crcT_injective _ _ h)

/-- Distinct data bytes give distinct accumulators. -/
theorem upd_injective_right (f b c : Byte) (h : upd f b = upd f c) : b = c := by
  simpa [← BitVec.xor_assoc] using congrArg (f ^^^ ·) (crcT_injective _ _ h)

@[simp] theorem crcFold_nil (s : Byte) : crcFold s [] = s := rfl
@[simp] theorem crcFold_cons (s b : Byte) (x : List Byte) : crcFold s (b :: x) = crcFold (upd s b) x := rfl

/-- R122: a fold over a concatenation is a fold of a fold. -/
@[simp] theorem crcFold_append (s : Byte) (x y : List Byte) : crcFold s (x ++ y) = crcFold (crcFold s x) y :=
  List.foldl_append ..

/-! R127's argument: a changed bit is a changed accumulator, and every later update keeps accumulators apart. -/

/-- Changing bit `j` of a data byte is changing bit `j` of the accumulator it meets. -/
theorem upd_flipBit (f b : Byte) (j : Nat) : upd f (flipBit b j) = upd (flipBit f j) b := by
  simp [upd, flipBit, BitVec.xor_assoc, BitVec.xor_comm b]

/-- A change of one bit is a change. -/
theorem flipBit_ne (b : Byte) {j : Nat} (hj : j < 8) : flipBit b j ≠ b := by
  have h : ∀ j : Fin 8, (1#8 <<< j.val) ≠ 0#8 := by decide
  exact fun he => h ⟨j, hj⟩ (by simpa [flipBit, ← BitVec.xor_assoc] using congrArg (b ^^^ ·) he)

/-- Distinct accumulators stay distinct to the end of any byte sequence. -/
theorem crcFold_injective (x : List Byte) : ∀ f g : Byte, crcFold f x = crcFold g x → f = g := by
  induction x with
  | nil => exact fun _ _ h => h
  | cons b x ih => exact fun f g h => upd_injective_left f g b (ih _ _ h)

/-- Flipping bit `j` of byte `i` is flipping bit `j` of the accumulator at step `i`. -/
theorem crcFold_flipAt (x : List Byte) : ∀ (s : Byte) (i j : Nat), i < x.length →
    crcFold s (flipAt x i j) = crcFold (flipBit (crcFold s (x.take i)) j) (x.drop i) := by
  induction x with
  | nil => intro _ _ _ h; simp at h
  | cons b x ih =>
    intro s i j h
    cases i with
    | zero => simp [flipAt, upd_flipBit]
    | succ i => simpa [flipAt] using ih (upd s b) i j (by simpa using h)

end Sys2Proof.Machine
end

