-- ==== Sys2Proof/Laws/Decode.lean ====
section
/-! SUPPORT. What the decoder answers, once: the seven kinds of control byte and the fields of a host word. -/

namespace Sys2Proof

set_option maxRecDepth 20000 in
/-- Every control byte is one of the seven kinds, and carries its operand back to itself. -/
theorem decodeCtrl_cases : ∀ c : Byte,
    (decodeCtrl c = .ui (pfBit c) ∧ ctrlByte typeUI (pfBit c) = c ∧ isDataCtrl c = true) ∨
    (decodeCtrl c = .uih (pfBit c) ∧ ctrlByte typeUIH (pfBit c) = c ∧ isDataCtrl c = true) ∨
    (decodeCtrl c = .sabm (pfBit c) ∧ ctrlByte typeSABM (pfBit c) = c ∧ ftype c = typeSABM ∧ isDataCtrl c = false) ∨
    (decodeCtrl c = .ua (pfBit c) ∧ ctrlByte typeUA (pfBit c) = c ∧ ftype c = typeUA ∧ isDataCtrl c = false) ∨
    (decodeCtrl c = .dm (pfBit c) ∧ ctrlByte typeDM (pfBit c) = c ∧ ftype c = typeDM ∧ isDataCtrl c = false) ∨
    (decodeCtrl c = .disc (pfBit c) ∧ ctrlByte typeDISC (pfBit c) = c ∧ ftype c = typeDISC ∧ isDataCtrl c = false) ∨
    (decodeCtrl c = .other c ∧ namesNoFrameType c = true ∧ isDataCtrl c = false ∧
      ftype c ≠ typeSABM ∧ ftype c ≠ typeUA ∧ ftype c ≠ typeDM ∧ ftype c ≠ typeDISC) := by
  decide

/-- A control byte never decodes to a host operation. -/
theorem isHostInstr_decodeCtrl (c : Byte) : Safety.isHostInstr (decodeCtrl c) = false := by
  rcases decodeCtrl_cases c with h | h | h | h | h | h | h <;> rw [h.1] <;> rfl

/-- A host word always decodes to a host operation. -/
theorem isHostInstr_decodeHost (w : HostWord) : Safety.isHostInstr (decodeHost w) = true := by
  unfold decodeHost
  split <;> rfl

end Sys2Proof
end

