-- ==== Sys2Proof/Laws/Memory.lean ====
section
/-! SUPPORT. The scratch buffer: a read after a write, and the canonical form that every write keeps. -/

namespace Sys2Proof.Machine

theorem Memory.read_cons_same (i : Nat) (b : Byte) (m : Memory) (h : ∀ x ∈ m, i < x.1) :
    Memory.read (Memory.cons i b m) i = b := by
  unfold Memory.cons
  split
  · rename_i hb
    subst hb
    induction m with
    | nil => rfl
    | cons x m ih =>
      have hx := h x (by simp)
      rw [Memory.read, if_neg (by omega)]
      exact ih fun y hy => h y (by simp [hy])
  · simp [Memory.read]

theorem Memory.read_cons_other (i j : Nat) (b : Byte) (m : Memory) (h : i ≠ j) :
    Memory.read (Memory.cons i b m) j = Memory.read m j := by
  unfold Memory.cons
  split <;> simp [Memory.read, h]

/-- A write leaves every other byte alone. -/
theorem Memory.read_write_other (m : Memory) (i j : Nat) (b : Byte) (h : i ≠ j) :
    Memory.read (Memory.write m i b) j = Memory.read m j := by
  induction m with
  | nil => exact Memory.read_cons_other i j b [] h
  | cons x m ih =>
    rw [Memory.write]
    split
    · exact Memory.read_cons_other i j b _ h
    · split
      · rename_i hx
        rw [Memory.read_cons_other i j b m h, Memory.read, if_neg (by omega)]
      · simp [Memory.read, ih]

/-- A read gives back what was written. -/
theorem Memory.read_write_same (m : Memory) (i : Nat) (b : Byte) (hm : Memory.wf m) :
    Memory.read (Memory.write m i b) i = b := by
  induction m with
  | nil => exact Memory.read_cons_same i b [] (by simp)
  | cons x m ih =>
    obtain ⟨hp, hn⟩ := hm
    obtain ⟨hx, hp'⟩ := List.pairwise_cons.mp hp
    rw [Memory.write]
    split
    · rename_i hlt
      refine Memory.read_cons_same i b _ fun y hy => ?_
      rcases List.mem_cons.mp hy with rfl | hy
      · exact hlt
      · exact Nat.lt_trans hlt (hx y hy)
    · split
      · rename_i hxi
        exact Memory.read_cons_same i b m fun y hy => hxi ▸ hx y hy
      · rename_i hne
        rw [Memory.read, if_neg hne]
        exact ih ⟨hp', fun y hy => hn y (by simp [hy])⟩

/-- What a written buffer holds: an old entry, or the byte just written, at its index. -/
theorem Memory.mem_write (m : Memory) (i : Nat) (b : Byte) (x : Host.Cell) (h : x ∈ Memory.write m i b) :
    x ∈ m ∨ x = (i, b) ∧ b ≠ Memory.unlisted := by
  have hc : ∀ m' : Memory, x ∈ Memory.cons i b m' → x ∈ m' ∨ x = (i, b) ∧ b ≠ Memory.unlisted := by
    intro m' hx
    unfold Memory.cons at hx
    split at hx
    · exact .inl hx
    · rename_i hb
      rcases List.mem_cons.mp hx with rfl | hx
      · exact .inr ⟨rfl, hb⟩
      · exact .inl hx
  induction m with
  | nil => exact (hc [] h).imp_left fun hx => hx
  | cons y m ih =>
    rw [Memory.write] at h
    split at h
    · exact hc _ h
    · split at h
      · exact (hc _ h).imp_left fun hx => by simp [hx]
      · rcases List.mem_cons.mp h with rfl | hx
        · exact .inl (by simp)
        · exact (ih hx).imp_left fun hx => by simp [hx]

/-- Every write keeps the canonical form. -/
theorem Memory.write_wf (m : Memory) (i : Nat) (b : Byte) (hm : Memory.wf m) : Memory.wf (Memory.write m i b) := by
  refine ⟨?_, fun x hx => ?_⟩
  · have hc : ∀ m' : Memory, m'.Pairwise (fun x y => x.1 < y.1) → (∀ x ∈ m', i < x.1) →
        (Memory.cons i b m').Pairwise (fun x y => x.1 < y.1) := by
      intro m' hp hlt
      unfold Memory.cons
      split
      · exact hp
      · exact List.pairwise_cons.mpr ⟨hlt, hp⟩
    obtain ⟨hp, -⟩ := hm
    induction m with
    | nil => exact hc [] hp (by simp)
    | cons y m ih =>
      obtain ⟨hy, hp'⟩ := List.pairwise_cons.mp hp
      rw [Memory.write]
      split
      · rename_i hlt
        refine hc _ hp fun x hx => ?_
        rcases List.mem_cons.mp hx with rfl | hx
        · exact hlt
        · exact Nat.lt_trans hlt (hy x hx)
      · split
        · rename_i hyi
          exact hc m hp' fun x hx => hyi ▸ hy x hx
        · rename_i hnlt hne
          refine List.pairwise_cons.mpr ⟨fun x hx => ?_, ih hp'⟩
          rcases Memory.mem_write m i b x hx with hx | ⟨rfl, -⟩
          · exact hy x hx
          · show y.1 < i
            omega
  · rcases Memory.mem_write m i b x hx with hx | ⟨rfl, hb⟩
    · exact hm.2 x hx
    · exact hb

/-- A write below a bound keeps every entry below it. -/
theorem Memory.write_below (m : Memory) (i n : Nat) (b : Byte) (hm : ∀ x ∈ m, x.1 < n) (hi : i < n) :
    ∀ x ∈ Memory.write m i b, x.1 < n := by
  intro x hx
  rcases Memory.mem_write m i b x hx with hx | ⟨rfl, -⟩
  · exact hm x hx
  · exact hi

/-- The first k bytes, one by one. -/
@[simp] theorem Memory.readFirst_length (m : Memory) (k : Nat) : (Memory.readFirst m k).length = k := by
  simp [Memory.readFirst]

/-- Two buffers that agree below k have the same first k bytes. -/
theorem Memory.readFirst_congr (m m' : Memory) (k : Nat) (h : ∀ i < k, Memory.read m i = Memory.read m' i) :
    Memory.readFirst m k = Memory.readFirst m' k :=
  List.map_congr_left fun i hi => h i (List.mem_range.mp hi)

theorem Memory.reset_wf : Memory.wf State.reset.rx.buf := by decide

end Sys2Proof.Machine
end

