-- ==== Sys2Proof/Laws/State.lean ====
section
/-! SUPPORT. One lemma per field per update of the state, true by rfl, so that no proof unfolds a record update. -/

namespace Sys2Proof.Machine

variable (s : State)

/-! ### setRxState -/

@[simp] theorem State.setRxState_rx (r : RxState) : (s.setRxState r).rx = { s.rx with rxState := r } := rfl
@[simp] theorem State.setRxState_reg (r : RxState) : (s.setRxState r).reg = s.reg := rfl
@[simp] theorem State.setRxState_uaCount (r : RxState) : (s.setRxState r).uaCount = s.uaCount := rfl
@[simp] theorem State.setRxState_dmCount (r : RxState) : (s.setRxState r).dmCount = s.dmCount := rfl
@[simp] theorem State.setRxState_rxDropCount (r : RxState) : (s.setRxState r).rxDropCount = s.rxDropCount := rfl
@[simp] theorem State.setRxState_disc0Pending (r : RxState) : (s.setRxState r).disc0Pending = s.disc0Pending := rfl
@[simp] theorem State.setRxState_muxEn (r : RxState) : (s.setRxState r).muxEn = s.muxEn := rfl
@[simp] theorem State.setRxState_held (r : RxState) : (s.setRxState r).held = s.held := rfl
@[simp] theorem State.setRxState_cfg (r : RxState) : (s.setRxState r).cfg = s.cfg := rfl
@[simp] theorem State.setRxState_env (r : RxState) : (s.setRxState r).env = s.env := rfl
@[simp] theorem State.setRxState_out (r : RxState) : (s.setRxState r).out = s.out := rfl

/-! ### captureControl -/

@[simp] theorem State.captureControl_rx (c : Byte) : (s.captureControl c).rx = { s.rx with ctrl := c, fcs := upd s.rx.fcs c, rxState := if isDataCtrl c then .len else .fcsCheck } := rfl
@[simp] theorem State.captureControl_reg (c : Byte) : (s.captureControl c).reg = s.reg := rfl
@[simp] theorem State.captureControl_uaCount (c : Byte) : (s.captureControl c).uaCount = s.uaCount := rfl
@[simp] theorem State.captureControl_dmCount (c : Byte) : (s.captureControl c).dmCount = s.dmCount := rfl
@[simp] theorem State.captureControl_rxDropCount (c : Byte) : (s.captureControl c).rxDropCount = s.rxDropCount := rfl
@[simp] theorem State.captureControl_disc0Pending (c : Byte) : (s.captureControl c).disc0Pending = s.disc0Pending := rfl
@[simp] theorem State.captureControl_muxEn (c : Byte) : (s.captureControl c).muxEn = s.muxEn := rfl
@[simp] theorem State.captureControl_held (c : Byte) : (s.captureControl c).held = s.held := rfl
@[simp] theorem State.captureControl_cfg (c : Byte) : (s.captureControl c).cfg = s.cfg := rfl
@[simp] theorem State.captureControl_env (c : Byte) : (s.captureControl c).env = s.env := rfl
@[simp] theorem State.captureControl_out (c : Byte) : (s.captureControl c).out = s.out := rfl

/-! ### setChan -/

@[simp] theorem State.setChan_rx (d : Dlci) (c : Channel) : (s.setChan d c).rx = s.rx := rfl
@[simp] theorem State.setChan_reg (d : Dlci) (c : Channel) : (s.setChan d c).reg = s.reg.set d.toNat c d.isLt := rfl
@[simp] theorem State.setChan_uaCount (d : Dlci) (c : Channel) : (s.setChan d c).uaCount = s.uaCount := rfl
@[simp] theorem State.setChan_dmCount (d : Dlci) (c : Channel) : (s.setChan d c).dmCount = s.dmCount := rfl
@[simp] theorem State.setChan_rxDropCount (d : Dlci) (c : Channel) : (s.setChan d c).rxDropCount = s.rxDropCount := rfl
@[simp] theorem State.setChan_disc0Pending (d : Dlci) (c : Channel) : (s.setChan d c).disc0Pending = s.disc0Pending := rfl
@[simp] theorem State.setChan_muxEn (d : Dlci) (c : Channel) : (s.setChan d c).muxEn = s.muxEn := rfl
@[simp] theorem State.setChan_held (d : Dlci) (c : Channel) : (s.setChan d c).held = s.held := rfl
@[simp] theorem State.setChan_cfg (d : Dlci) (c : Channel) : (s.setChan d c).cfg = s.cfg := rfl
@[simp] theorem State.setChan_env (d : Dlci) (c : Channel) : (s.setChan d c).env = s.env := rfl
@[simp] theorem State.setChan_out (d : Dlci) (c : Channel) : (s.setChan d c).out = s.out := rfl

/-! ### setConnected -/

@[simp] theorem State.setConnected_rx (d : Dlci) (v : Bool) : (s.setConnected d v).rx = s.rx := rfl
@[simp] theorem State.setConnected_uaCount (d : Dlci) (v : Bool) : (s.setConnected d v).uaCount = s.uaCount := rfl
@[simp] theorem State.setConnected_dmCount (d : Dlci) (v : Bool) : (s.setConnected d v).dmCount = s.dmCount := rfl
@[simp] theorem State.setConnected_rxDropCount (d : Dlci) (v : Bool) : (s.setConnected d v).rxDropCount = s.rxDropCount := rfl
@[simp] theorem State.setConnected_disc0Pending (d : Dlci) (v : Bool) : (s.setConnected d v).disc0Pending = s.disc0Pending := rfl
@[simp] theorem State.setConnected_muxEn (d : Dlci) (v : Bool) : (s.setConnected d v).muxEn = s.muxEn := rfl
@[simp] theorem State.setConnected_held (d : Dlci) (v : Bool) : (s.setConnected d v).held = s.held := rfl
@[simp] theorem State.setConnected_cfg (d : Dlci) (v : Bool) : (s.setConnected d v).cfg = s.cfg := rfl
@[simp] theorem State.setConnected_env (d : Dlci) (v : Bool) : (s.setConnected d v).env = s.env := rfl
@[simp] theorem State.setConnected_out (d : Dlci) (v : Bool) : (s.setConnected d v).out = s.out := rfl

/-! ### setFormat -/

@[simp] theorem State.setFormat_rx (d : Dlci) (m : Mode) (mtu : Mtu) : (s.setFormat d m mtu).rx = s.rx := rfl
@[simp] theorem State.setFormat_uaCount (d : Dlci) (m : Mode) (mtu : Mtu) : (s.setFormat d m mtu).uaCount = s.uaCount := rfl
@[simp] theorem State.setFormat_dmCount (d : Dlci) (m : Mode) (mtu : Mtu) : (s.setFormat d m mtu).dmCount = s.dmCount := rfl
@[simp] theorem State.setFormat_rxDropCount (d : Dlci) (m : Mode) (mtu : Mtu) : (s.setFormat d m mtu).rxDropCount = s.rxDropCount := rfl
@[simp] theorem State.setFormat_disc0Pending (d : Dlci) (m : Mode) (mtu : Mtu) : (s.setFormat d m mtu).disc0Pending = s.disc0Pending := rfl
@[simp] theorem State.setFormat_muxEn (d : Dlci) (m : Mode) (mtu : Mtu) : (s.setFormat d m mtu).muxEn = s.muxEn := rfl
@[simp] theorem State.setFormat_held (d : Dlci) (m : Mode) (mtu : Mtu) : (s.setFormat d m mtu).held = s.held := rfl
@[simp] theorem State.setFormat_cfg (d : Dlci) (m : Mode) (mtu : Mtu) : (s.setFormat d m mtu).cfg = s.cfg := rfl
@[simp] theorem State.setFormat_env (d : Dlci) (m : Mode) (mtu : Mtu) : (s.setFormat d m mtu).env = s.env := rfl
@[simp] theorem State.setFormat_out (d : Dlci) (m : Mode) (mtu : Mtu) : (s.setFormat d m mtu).out = s.out := rfl

/-! ### setQueue -/

@[simp] theorem State.setQueue_rx (d : Dlci) (q : Option Handle) : (s.setQueue d q).rx = s.rx := rfl
@[simp] theorem State.setQueue_uaCount (d : Dlci) (q : Option Handle) : (s.setQueue d q).uaCount = s.uaCount := rfl
@[simp] theorem State.setQueue_dmCount (d : Dlci) (q : Option Handle) : (s.setQueue d q).dmCount = s.dmCount := rfl
@[simp] theorem State.setQueue_rxDropCount (d : Dlci) (q : Option Handle) : (s.setQueue d q).rxDropCount = s.rxDropCount := rfl
@[simp] theorem State.setQueue_disc0Pending (d : Dlci) (q : Option Handle) : (s.setQueue d q).disc0Pending = s.disc0Pending := rfl
@[simp] theorem State.setQueue_muxEn (d : Dlci) (q : Option Handle) : (s.setQueue d q).muxEn = s.muxEn := rfl
@[simp] theorem State.setQueue_held (d : Dlci) (q : Option Handle) : (s.setQueue d q).held = s.held := rfl
@[simp] theorem State.setQueue_cfg (d : Dlci) (q : Option Handle) : (s.setQueue d q).cfg = s.cfg := rfl
@[simp] theorem State.setQueue_env (d : Dlci) (q : Option Handle) : (s.setQueue d q).env = s.env := rfl
@[simp] theorem State.setQueue_out (d : Dlci) (q : Option Handle) : (s.setQueue d q).out = s.out := rfl

/-! ### logEvent -/

@[simp] theorem State.logEvent_rx (e : Event) : (s.logEvent e).rx = s.rx := rfl
@[simp] theorem State.logEvent_reg (e : Event) : (s.logEvent e).reg = s.reg := rfl
@[simp] theorem State.logEvent_uaCount (e : Event) : (s.logEvent e).uaCount = s.uaCount := rfl
@[simp] theorem State.logEvent_dmCount (e : Event) : (s.logEvent e).dmCount = s.dmCount := rfl
@[simp] theorem State.logEvent_rxDropCount (e : Event) : (s.logEvent e).rxDropCount = s.rxDropCount := rfl
@[simp] theorem State.logEvent_disc0Pending (e : Event) : (s.logEvent e).disc0Pending = s.disc0Pending := rfl
@[simp] theorem State.logEvent_muxEn (e : Event) : (s.logEvent e).muxEn = s.muxEn := rfl
@[simp] theorem State.logEvent_held (e : Event) : (s.logEvent e).held = s.held := rfl
@[simp] theorem State.logEvent_cfg (e : Event) : (s.logEvent e).cfg = s.cfg := rfl
@[simp] theorem State.logEvent_env (e : Event) : (s.logEvent e).env = s.env := rfl
@[simp] theorem State.logEvent_out (e : Event) : (s.logEvent e).out = { s.out with events := s.out.events ++ [e] } := rfl

/-! ### emitRaw -/

@[simp] theorem State.emitRaw_rx (b : Byte) : (s.emitRaw b).rx = s.rx := rfl
@[simp] theorem State.emitRaw_reg (b : Byte) : (s.emitRaw b).reg = s.reg := rfl
@[simp] theorem State.emitRaw_uaCount (b : Byte) : (s.emitRaw b).uaCount = s.uaCount := rfl
@[simp] theorem State.emitRaw_dmCount (b : Byte) : (s.emitRaw b).dmCount = s.dmCount := rfl
@[simp] theorem State.emitRaw_rxDropCount (b : Byte) : (s.emitRaw b).rxDropCount = s.rxDropCount := rfl
@[simp] theorem State.emitRaw_disc0Pending (b : Byte) : (s.emitRaw b).disc0Pending = s.disc0Pending := rfl
@[simp] theorem State.emitRaw_muxEn (b : Byte) : (s.emitRaw b).muxEn = s.muxEn := rfl
@[simp] theorem State.emitRaw_held (b : Byte) : (s.emitRaw b).held = s.held := rfl
@[simp] theorem State.emitRaw_cfg (b : Byte) : (s.emitRaw b).cfg = s.cfg := rfl
@[simp] theorem State.emitRaw_env (b : Byte) : (s.emitRaw b).env = s.env := rfl
@[simp] theorem State.emitRaw_out (b : Byte) : (s.emitRaw b).out = { s.out with rawOut := s.out.rawOut ++ [b] } := rfl

/-! ### push -/

@[simp] theorem State.push_rx (h : Handle) (bs : List Byte) : (s.push h bs).rx = s.rx := rfl
@[simp] theorem State.push_reg (h : Handle) (bs : List Byte) : (s.push h bs).reg = s.reg := rfl
@[simp] theorem State.push_uaCount (h : Handle) (bs : List Byte) : (s.push h bs).uaCount = s.uaCount := rfl
@[simp] theorem State.push_dmCount (h : Handle) (bs : List Byte) : (s.push h bs).dmCount = s.dmCount := rfl
@[simp] theorem State.push_rxDropCount (h : Handle) (bs : List Byte) : (s.push h bs).rxDropCount = s.rxDropCount := rfl
@[simp] theorem State.push_disc0Pending (h : Handle) (bs : List Byte) : (s.push h bs).disc0Pending = s.disc0Pending := rfl
@[simp] theorem State.push_muxEn (h : Handle) (bs : List Byte) : (s.push h bs).muxEn = s.muxEn := rfl
@[simp] theorem State.push_held (h : Handle) (bs : List Byte) : (s.push h bs).held = s.held := rfl
@[simp] theorem State.push_cfg (h : Handle) (bs : List Byte) : (s.push h bs).cfg = s.cfg := rfl
@[simp] theorem State.push_env (h : Handle) (bs : List Byte) : (s.push h bs).env = s.env := rfl
@[simp] theorem State.push_out (h : Handle) (bs : List Byte) : (s.push h bs).out = { s.out with pushed := s.out.pushed ++ bs.map fun b => (h, b) } := rfl

/-! ### reply -/

@[simp] theorem State.reply_rx (r : HostReply) : (s.reply r).rx = s.rx := rfl
@[simp] theorem State.reply_reg (r : HostReply) : (s.reply r).reg = s.reg := rfl
@[simp] theorem State.reply_uaCount (r : HostReply) : (s.reply r).uaCount = s.uaCount := rfl
@[simp] theorem State.reply_dmCount (r : HostReply) : (s.reply r).dmCount = s.dmCount := rfl
@[simp] theorem State.reply_rxDropCount (r : HostReply) : (s.reply r).rxDropCount = s.rxDropCount := rfl
@[simp] theorem State.reply_disc0Pending (r : HostReply) : (s.reply r).disc0Pending = s.disc0Pending := rfl
@[simp] theorem State.reply_muxEn (r : HostReply) : (s.reply r).muxEn = s.muxEn := rfl
@[simp] theorem State.reply_held (r : HostReply) : (s.reply r).held = s.held := rfl
@[simp] theorem State.reply_cfg (r : HostReply) : (s.reply r).cfg = s.cfg := rfl
@[simp] theorem State.reply_env (r : HostReply) : (s.reply r).env = s.env := rfl
@[simp] theorem State.reply_out (r : HostReply) : (s.reply r).out = { s.out with replies := s.out.replies ++ [r] } := rfl

/-! ### countUa -/

@[simp] theorem State.countUa_rx : (s.countUa).rx = s.rx := rfl
@[simp] theorem State.countUa_reg : (s.countUa).reg = s.reg := rfl
@[simp] theorem State.countUa_uaCount : (s.countUa).uaCount = s.uaCount + 1 := rfl
@[simp] theorem State.countUa_dmCount : (s.countUa).dmCount = s.dmCount := rfl
@[simp] theorem State.countUa_rxDropCount : (s.countUa).rxDropCount = s.rxDropCount := rfl
@[simp] theorem State.countUa_disc0Pending : (s.countUa).disc0Pending = s.disc0Pending := rfl
@[simp] theorem State.countUa_muxEn : (s.countUa).muxEn = s.muxEn := rfl
@[simp] theorem State.countUa_held : (s.countUa).held = s.held := rfl
@[simp] theorem State.countUa_cfg : (s.countUa).cfg = s.cfg := rfl
@[simp] theorem State.countUa_env : (s.countUa).env = s.env := rfl
@[simp] theorem State.countUa_out : (s.countUa).out = s.out := rfl

/-! ### countDm -/

@[simp] theorem State.countDm_rx : (s.countDm).rx = s.rx := rfl
@[simp] theorem State.countDm_reg : (s.countDm).reg = s.reg := rfl
@[simp] theorem State.countDm_uaCount : (s.countDm).uaCount = s.uaCount := rfl
@[simp] theorem State.countDm_dmCount : (s.countDm).dmCount = s.dmCount + 1 := rfl
@[simp] theorem State.countDm_rxDropCount : (s.countDm).rxDropCount = s.rxDropCount := rfl
@[simp] theorem State.countDm_disc0Pending : (s.countDm).disc0Pending = s.disc0Pending := rfl
@[simp] theorem State.countDm_muxEn : (s.countDm).muxEn = s.muxEn := rfl
@[simp] theorem State.countDm_held : (s.countDm).held = s.held := rfl
@[simp] theorem State.countDm_cfg : (s.countDm).cfg = s.cfg := rfl
@[simp] theorem State.countDm_env : (s.countDm).env = s.env := rfl
@[simp] theorem State.countDm_out : (s.countDm).out = s.out := rfl

/-! ### raiseDisc0 -/

@[simp] theorem State.raiseDisc0_rx : (s.raiseDisc0).rx = s.rx := rfl
@[simp] theorem State.raiseDisc0_reg : (s.raiseDisc0).reg = s.reg := rfl
@[simp] theorem State.raiseDisc0_uaCount : (s.raiseDisc0).uaCount = s.uaCount := rfl
@[simp] theorem State.raiseDisc0_dmCount : (s.raiseDisc0).dmCount = s.dmCount := rfl
@[simp] theorem State.raiseDisc0_rxDropCount : (s.raiseDisc0).rxDropCount = s.rxDropCount := rfl
@[simp] theorem State.raiseDisc0_disc0Pending : (s.raiseDisc0).disc0Pending = true := rfl
@[simp] theorem State.raiseDisc0_muxEn : (s.raiseDisc0).muxEn = s.muxEn := rfl
@[simp] theorem State.raiseDisc0_held : (s.raiseDisc0).held = s.held := rfl
@[simp] theorem State.raiseDisc0_cfg : (s.raiseDisc0).cfg = s.cfg := rfl
@[simp] theorem State.raiseDisc0_env : (s.raiseDisc0).env = s.env := rfl
@[simp] theorem State.raiseDisc0_out : (s.raiseDisc0).out = s.out := rfl

/-! ### countDrops -/

@[simp] theorem State.countDrops_rx (n : Nat) : (s.countDrops n).rx = s.rx := rfl
@[simp] theorem State.countDrops_reg (n : Nat) : (s.countDrops n).reg = s.reg := rfl
@[simp] theorem State.countDrops_uaCount (n : Nat) : (s.countDrops n).uaCount = s.uaCount := rfl
@[simp] theorem State.countDrops_dmCount (n : Nat) : (s.countDrops n).dmCount = s.dmCount := rfl
@[simp] theorem State.countDrops_rxDropCount (n : Nat) : (s.countDrops n).rxDropCount = s.rxDropCount + BitVec.ofNat 32 n := rfl
@[simp] theorem State.countDrops_disc0Pending (n : Nat) : (s.countDrops n).disc0Pending = s.disc0Pending := rfl
@[simp] theorem State.countDrops_muxEn (n : Nat) : (s.countDrops n).muxEn = s.muxEn := rfl
@[simp] theorem State.countDrops_held (n : Nat) : (s.countDrops n).held = s.held := rfl
@[simp] theorem State.countDrops_cfg (n : Nat) : (s.countDrops n).cfg = s.cfg := rfl
@[simp] theorem State.countDrops_env (n : Nat) : (s.countDrops n).env = s.env := rfl
@[simp] theorem State.countDrops_out (n : Nat) : (s.countDrops n).out = s.out := rfl

/-! ### hostError -/

@[simp] theorem State.hostError_rx (c : Status) : (s.hostError c).rx = s.rx := rfl
@[simp] theorem State.hostError_reg (c : Status) : (s.hostError c).reg = s.reg := rfl
@[simp] theorem State.hostError_uaCount (c : Status) : (s.hostError c).uaCount = s.uaCount := rfl
@[simp] theorem State.hostError_dmCount (c : Status) : (s.hostError c).dmCount = s.dmCount := rfl
@[simp] theorem State.hostError_rxDropCount (c : Status) : (s.hostError c).rxDropCount = s.rxDropCount := rfl
@[simp] theorem State.hostError_disc0Pending (c : Status) : (s.hostError c).disc0Pending = s.disc0Pending := rfl
@[simp] theorem State.hostError_muxEn (c : Status) : (s.hostError c).muxEn = s.muxEn := rfl
@[simp] theorem State.hostError_held (c : Status) : (s.hostError c).held = s.held := rfl
@[simp] theorem State.hostError_cfg (c : Status) : (s.hostError c).cfg = s.cfg := rfl
@[simp] theorem State.hostError_env (c : Status) : (s.hostError c).env = s.env := rfl
@[simp] theorem State.hostError_out (c : Status) : (s.hostError c).out = { s.out with replies := s.out.replies ++ [{ status := c, data := .none }] } := rfl

/-! ### hostOk -/

@[simp] theorem State.hostOk_rx (x : HostData) : (s.hostOk x).rx = s.rx := rfl
@[simp] theorem State.hostOk_reg (x : HostData) : (s.hostOk x).reg = s.reg := rfl
@[simp] theorem State.hostOk_uaCount (x : HostData) : (s.hostOk x).uaCount = s.uaCount := rfl
@[simp] theorem State.hostOk_dmCount (x : HostData) : (s.hostOk x).dmCount = s.dmCount := rfl
@[simp] theorem State.hostOk_rxDropCount (x : HostData) : (s.hostOk x).rxDropCount = s.rxDropCount := rfl
@[simp] theorem State.hostOk_disc0Pending (x : HostData) : (s.hostOk x).disc0Pending = s.disc0Pending := rfl
@[simp] theorem State.hostOk_muxEn (x : HostData) : (s.hostOk x).muxEn = s.muxEn := rfl
@[simp] theorem State.hostOk_held (x : HostData) : (s.hostOk x).held = s.held := rfl
@[simp] theorem State.hostOk_cfg (x : HostData) : (s.hostOk x).cfg = s.cfg := rfl
@[simp] theorem State.hostOk_env (x : HostData) : (s.hostOk x).env = s.env := rfl
@[simp] theorem State.hostOk_out (x : HostData) : (s.hostOk x).out = { s.out with replies := s.out.replies ++ [{ status := .ok, data := x }] } := rfl

/-! ### beginTurn -/

@[simp] theorem State.beginTurn_rx (ts : List Turn) (a : Answers) : (s.beginTurn ts a).rx = s.rx := rfl
@[simp] theorem State.beginTurn_reg (ts : List Turn) (a : Answers) : (s.beginTurn ts a).reg = s.reg := rfl
@[simp] theorem State.beginTurn_uaCount (ts : List Turn) (a : Answers) : (s.beginTurn ts a).uaCount = s.uaCount := rfl
@[simp] theorem State.beginTurn_dmCount (ts : List Turn) (a : Answers) : (s.beginTurn ts a).dmCount = s.dmCount := rfl
@[simp] theorem State.beginTurn_rxDropCount (ts : List Turn) (a : Answers) : (s.beginTurn ts a).rxDropCount = s.rxDropCount := rfl
@[simp] theorem State.beginTurn_disc0Pending (ts : List Turn) (a : Answers) : (s.beginTurn ts a).disc0Pending = s.disc0Pending := rfl
@[simp] theorem State.beginTurn_muxEn (ts : List Turn) (a : Answers) : (s.beginTurn ts a).muxEn = s.muxEn := rfl
@[simp] theorem State.beginTurn_held (ts : List Turn) (a : Answers) : (s.beginTurn ts a).held = s.held := rfl
@[simp] theorem State.beginTurn_cfg (ts : List Turn) (a : Answers) : (s.beginTurn ts a).cfg = s.cfg := rfl
@[simp] theorem State.beginTurn_env (ts : List Turn) (a : Answers) : (s.beginTurn ts a).env = { s.env with turns := ts, answers := a } := rfl
@[simp] theorem State.beginTurn_out (ts : List Turn) (a : Answers) : (s.beginTurn ts a).out = s.out := rfl

/-! ### enqueue -/

@[simp] theorem State.enqueue_rx (q : TxQueue) (f : Frame) : (s.enqueue q f).rx = s.rx := by cases q <;> rfl
@[simp] theorem State.enqueue_reg (q : TxQueue) (f : Frame) : (s.enqueue q f).reg = s.reg := by cases q <;> rfl
@[simp] theorem State.enqueue_uaCount (q : TxQueue) (f : Frame) : (s.enqueue q f).uaCount = s.uaCount := by cases q <;> rfl
@[simp] theorem State.enqueue_dmCount (q : TxQueue) (f : Frame) : (s.enqueue q f).dmCount = s.dmCount := by cases q <;> rfl
@[simp] theorem State.enqueue_rxDropCount (q : TxQueue) (f : Frame) : (s.enqueue q f).rxDropCount = s.rxDropCount := by cases q <;> rfl
@[simp] theorem State.enqueue_disc0Pending (q : TxQueue) (f : Frame) : (s.enqueue q f).disc0Pending = s.disc0Pending := by cases q <;> rfl
@[simp] theorem State.enqueue_muxEn (q : TxQueue) (f : Frame) : (s.enqueue q f).muxEn = s.muxEn := by cases q <;> rfl
@[simp] theorem State.enqueue_held (q : TxQueue) (f : Frame) : (s.enqueue q f).held = s.held := by cases q <;> rfl
@[simp] theorem State.enqueue_cfg (q : TxQueue) (f : Frame) : (s.enqueue q f).cfg = s.cfg := by cases q <;> rfl
@[simp] theorem State.enqueue_env (q : TxQueue) (f : Frame) : (s.enqueue q f).env = s.env := by cases q <;> rfl

@[simp] theorem State.enqueue_hi_out (f : Frame) : (s.enqueue .hi f).out = { s.out with txHi := s.out.txHi ++ [f] } := rfl
@[simp] theorem State.enqueue_lo_out (f : Frame) : (s.enqueue .lo f).out = { s.out with txLo := s.out.txLo ++ [f] } := rfl
@[simp] theorem State.enqueue_pushed (q : TxQueue) (f : Frame) : (s.enqueue q f).out.pushed = s.out.pushed := by cases q <;> rfl
@[simp] theorem State.enqueue_rawOut (q : TxQueue) (f : Frame) : (s.enqueue q f).out.rawOut = s.out.rawOut := by cases q <;> rfl
@[simp] theorem State.enqueue_replies (q : TxQueue) (f : Frame) : (s.enqueue q f).out.replies = s.out.replies := by
  cases q <;> rfl
@[simp] theorem State.enqueue_events (q : TxQueue) (f : Frame) : (s.enqueue q f).out.events = s.out.events := by cases q <;> rfl

/-! ### replyFrame -/

@[simp] theorem State.replyFrame_rx (d : Dlci) (cr : Bool) (c2 : Byte) : (s.replyFrame d cr c2).rx = s.rx := by
  unfold State.replyFrame; split <;> rfl
@[simp] theorem State.replyFrame_reg (d : Dlci) (cr : Bool) (c2 : Byte) : (s.replyFrame d cr c2).reg = s.reg := by
  unfold State.replyFrame; split <;> rfl
@[simp] theorem State.replyFrame_uaCount (d : Dlci) (cr : Bool) (c2 : Byte) : (s.replyFrame d cr c2).uaCount = s.uaCount := by
  unfold State.replyFrame; split <;> rfl
@[simp] theorem State.replyFrame_dmCount (d : Dlci) (cr : Bool) (c2 : Byte) : (s.replyFrame d cr c2).dmCount = s.dmCount := by
  unfold State.replyFrame; split <;> rfl
@[simp] theorem State.replyFrame_rxDropCount (d : Dlci) (cr : Bool) (c2 : Byte) : (s.replyFrame d cr c2).rxDropCount = s.rxDropCount := by
  unfold State.replyFrame; split <;> rfl
@[simp] theorem State.replyFrame_disc0Pending (d : Dlci) (cr : Bool) (c2 : Byte) : (s.replyFrame d cr c2).disc0Pending = s.disc0Pending := by
  unfold State.replyFrame; split <;> rfl
@[simp] theorem State.replyFrame_muxEn (d : Dlci) (cr : Bool) (c2 : Byte) : (s.replyFrame d cr c2).muxEn = s.muxEn := by
  unfold State.replyFrame; split <;> rfl
@[simp] theorem State.replyFrame_held (d : Dlci) (cr : Bool) (c2 : Byte) : (s.replyFrame d cr c2).held = s.held := by
  unfold State.replyFrame; split <;> rfl
@[simp] theorem State.replyFrame_cfg (d : Dlci) (cr : Bool) (c2 : Byte) : (s.replyFrame d cr c2).cfg = s.cfg := by
  unfold State.replyFrame; split <;> rfl
@[simp] theorem State.replyFrame_env (d : Dlci) (cr : Bool) (c2 : Byte) : (s.replyFrame d cr c2).env = s.env := by
  unfold State.replyFrame; split <;> rfl

/-! ### offerNext: everything but `held` and `out` -/

@[simp] theorem State.offerNext_rx : s.offerNext.rx = s.rx := by
  unfold State.offerNext; (repeat' split) <;> simp
@[simp] theorem State.offerNext_reg : s.offerNext.reg = s.reg := by
  unfold State.offerNext; (repeat' split) <;> simp
@[simp] theorem State.offerNext_uaCount : s.offerNext.uaCount = s.uaCount := by
  unfold State.offerNext; (repeat' split) <;> simp
@[simp] theorem State.offerNext_dmCount : s.offerNext.dmCount = s.dmCount := by
  unfold State.offerNext; (repeat' split) <;> simp
@[simp] theorem State.offerNext_rxDropCount : s.offerNext.rxDropCount = s.rxDropCount := by
  unfold State.offerNext; (repeat' split) <;> simp
@[simp] theorem State.offerNext_disc0Pending : s.offerNext.disc0Pending = s.disc0Pending := by
  unfold State.offerNext; (repeat' split) <;> simp
@[simp] theorem State.offerNext_muxEn : s.offerNext.muxEn = s.muxEn := by
  unfold State.offerNext; (repeat' split) <;> simp
@[simp] theorem State.offerNext_cfg : s.offerNext.cfg = s.cfg := by
  unfold State.offerNext; (repeat' split) <;> simp
@[simp] theorem State.offerNext_env : s.offerNext.env = s.env := by
  unfold State.offerNext; (repeat' split) <;> simp

/-! ### startSend: everything but `held` and `out` -/

@[simp] theorem State.startSend_rx (q : TxQueue) (fs : List Frame) (r : HostReply) : (s.startSend q fs r).rx = s.rx := by
  simp [State.startSend]
@[simp] theorem State.startSend_reg (q : TxQueue) (fs : List Frame) (r : HostReply) : (s.startSend q fs r).reg = s.reg := by
  simp [State.startSend]
@[simp] theorem State.startSend_uaCount (q : TxQueue) (fs : List Frame) (r : HostReply) : (s.startSend q fs r).uaCount = s.uaCount := by
  simp [State.startSend]
@[simp] theorem State.startSend_dmCount (q : TxQueue) (fs : List Frame) (r : HostReply) : (s.startSend q fs r).dmCount = s.dmCount := by
  simp [State.startSend]
@[simp] theorem State.startSend_rxDropCount (q : TxQueue) (fs : List Frame) (r : HostReply) : (s.startSend q fs r).rxDropCount = s.rxDropCount := by
  simp [State.startSend]
@[simp] theorem State.startSend_disc0Pending (q : TxQueue) (fs : List Frame) (r : HostReply) : (s.startSend q fs r).disc0Pending = s.disc0Pending := by
  simp [State.startSend]
@[simp] theorem State.startSend_muxEn (q : TxQueue) (fs : List Frame) (r : HostReply) : (s.startSend q fs r).muxEn = s.muxEn := by
  simp [State.startSend]
@[simp] theorem State.startSend_cfg (q : TxQueue) (fs : List Frame) (r : HostReply) : (s.startSend q fs r).cfg = s.cfg := by
  simp [State.startSend]
@[simp] theorem State.startSend_env (q : TxQueue) (fs : List Frame) (r : HostReply) : (s.startSend q fs r).env = s.env := by
  simp [State.startSend]

/-! ### resetBlock -/

@[simp] theorem State.resetBlock_rx : s.resetBlock.rx = Decoder.reset := rfl
@[simp] theorem State.resetBlock_reg : s.resetBlock.reg = Vector.replicate 64 Channel.reset := rfl
@[simp] theorem State.resetBlock_uaCount : s.resetBlock.uaCount = 0 := rfl
@[simp] theorem State.resetBlock_dmCount : s.resetBlock.dmCount = 0 := rfl
@[simp] theorem State.resetBlock_rxDropCount : s.resetBlock.rxDropCount = 0 := rfl
@[simp] theorem State.resetBlock_disc0Pending : s.resetBlock.disc0Pending = false := rfl
@[simp] theorem State.resetBlock_muxEn : s.resetBlock.muxEn = false := rfl
@[simp] theorem State.resetBlock_held : s.resetBlock.held = none := rfl
@[simp] theorem State.resetBlock_cfg : s.resetBlock.cfg = s.cfg := rfl
@[simp] theorem State.resetBlock_env : s.resetBlock.env = s.env := rfl
@[simp] theorem State.resetBlock_out : s.resetBlock.out = s.out := rfl

end Sys2Proof.Machine
end

