-- ==== Sys2Proof/Laws/Registry.lean ====
section
/-! SUPPORT. The registry: what an entry reads as after a write to it or to another entry. -/

namespace Sys2Proof.Machine

variable (s : State) (d e : Dlci)

@[simp] theorem State.chan_setChan_same (c : Channel) : (s.setChan d c).chan d = c := by
  simp [State.chan, State.setChan]

theorem State.chan_setChan (c : Channel) : (s.setChan d c).chan e = if d = e then c else s.chan e := by
  simp [State.chan, State.setChan, Vector.getElem_set, BitVec.toNat_inj]

/-- The entry depends on the registry alone. -/
theorem State.chan_congr {s t : State} (h : s.reg = t.reg) : s.chan d = t.chan d := by
  simp [State.chan, h]

/-- Writing back the entry that is there changes nothing. -/
@[simp] theorem State.setChan_chan : s.setChan d (s.chan d) = s := by
  simp [State.chan, State.setChan]

theorem State.chan_setConnected (v : Bool) :
    (s.setConnected d v).chan e = if d = e then { s.chan d with connected := v } else s.chan e :=
  State.chan_setChan ..

theorem State.chan_setFormat (m : Mode) (mtu : Mtu) :
    (s.setFormat d m mtu).chan e = if d = e then { s.chan d with mode := m, mtu := mtu } else s.chan e :=
  State.chan_setChan ..

theorem State.chan_setQueue (q : Option Handle) :
    (s.setQueue d q).chan e = if d = e then { s.chan d with queue := q } else s.chan e :=
  State.chan_setChan ..

/-- Every entry of a block that has just been reset (R270). -/
@[simp] theorem State.chan_resetBlock : s.resetBlock.chan d = Channel.reset := by
  simp [State.chan]

@[simp] theorem State.chan_reset : State.reset.chan d = Channel.reset := by
  simp [State.chan, State.reset]

end Sys2Proof.Machine
end

