-- ==== Sys2Proof/Laws/Ops.lean ====
section
/-! SUPPORT. For each shared operation, once, everything it can do. -/

namespace Sys2Proof.Machine

variable (s : State)

/-- A delivery's push: it stops only at an index the buffer does not have; otherwise it pushes what fits, in order, and
counts and records the rest. -/
theorem State.pushPayload_eq (h : Handle) :
    s.pushPayload h =
      if s.cfg.scratchCap < min s.rx.size.toNat s.env.answers.qFree then .fault .scratchOutOfRange
      else .next { s with
        rxDropCount := s.rxDropCount + BitVec.ofNat 32 (s.rx.size.toNat - min s.rx.size.toNat s.env.answers.qFree)
        out := { s.out with
          pushed := s.out.pushed ++
            (List.range (min s.rx.size.toNat s.env.answers.qFree)).map fun j => (h, s.rx.buf.read j)
          events := if min s.rx.size.toNat s.env.answers.qFree < s.rx.size.toNat then s.out.events ++ [.qFull]
            else s.out.events } } := by
  unfold State.pushPayload
  by_cases hc : s.cfg.scratchCap < min s.rx.size.toNat s.env.answers.qFree
  · simp only [hc, if_true]
  · by_cases hk : min s.rx.size.toNat s.env.answers.qFree < s.rx.size.toNat
    · simp only [hc, hk, if_true, if_false]
      simp [State.push, State.countDrops, State.logEvent, Memory.readFirst]
    · have h0 : s.rx.size.toNat - min s.rx.size.toNat s.env.answers.qFree = 0 := by omega
      simp only [hc, hk, if_false, h0]
      simp [State.push, Memory.readFirst]

/-- A delivery, case by case (R170). -/
theorem State.deliver_none (hq : s.rx.q = none) :
    s.deliver = .next ((s.setRxState .waitingAddress).logEvent .discard) := by
  simp [State.deliver, hq]

theorem State.deliver_unconnected (h : Handle) (hq : s.rx.q = some h)
    (hd : deliverable (addrDlci s.rx.addr) (s.chan (addrDlci s.rx.addr)) = false) :
    s.deliver = .next ((s.setRxState .waitingAddress).logEvent .unconnected) := by
  simp [State.deliver, hq, hd]

theorem State.deliver_push (h : Handle) (hq : s.rx.q = some h)
    (hd : deliverable (addrDlci s.rx.addr) (s.chan (addrDlci s.rx.addr)) = true) :
    s.deliver = (s.setRxState .waitingAddress).pushPayload h := by
  simp [State.deliver, hq, hd]

/-- A delivery that answers a next state did one of three things. -/
theorem State.deliver_cases (t : State) (ht : s.deliver = .next t) :
    (s.rx.q = none ∧ t = (s.setRxState .waitingAddress).logEvent .discard) ∨
    (∃ h, s.rx.q = some h ∧ deliverable (addrDlci s.rx.addr) (s.chan (addrDlci s.rx.addr)) = false ∧
      t = (s.setRxState .waitingAddress).logEvent .unconnected) ∨
    (∃ h, s.rx.q = some h ∧ deliverable (addrDlci s.rx.addr) (s.chan (addrDlci s.rx.addr)) = true ∧
      min s.rx.size.toNat s.env.answers.qFree ≤ s.cfg.scratchCap ∧
      t = { s.setRxState .waitingAddress with
        rxDropCount := s.rxDropCount + BitVec.ofNat 32 (s.rx.size.toNat - min s.rx.size.toNat s.env.answers.qFree)
        out := { s.out with
          pushed := s.out.pushed ++
            (List.range (min s.rx.size.toNat s.env.answers.qFree)).map fun j => (h, s.rx.buf.read j)
          events := if min s.rx.size.toNat s.env.answers.qFree < s.rx.size.toNat then s.out.events ++ [.qFull]
            else s.out.events } }) := by
  cases hq : s.rx.q with
  | none =>
    rw [s.deliver_none hq] at ht
    cases ht
    exact .inl ⟨rfl, rfl⟩
  | some h =>
    cases hd : deliverable (addrDlci s.rx.addr) (s.chan (addrDlci s.rx.addr)) with
    | false =>
      rw [s.deliver_unconnected h hq hd] at ht
      cases ht
      exact .inr (.inl ⟨h, rfl, rfl, rfl⟩)
    | true =>
      rw [s.deliver_push h hq hd, State.pushPayload_eq] at ht
      split at ht
      · cases ht
      · rename_i hk
        cases ht
        exact .inr (.inr ⟨h, rfl, rfl, Nat.not_lt.mp hk, rfl⟩)

/-- A reply is sent or its loss recorded (R196). -/
theorem State.replyFrame_cases (d : Dlci) (cr : Bool) (c2 : Byte) :
    (s.env.answers.txHiOk = true ∧ s.replyFrame d cr c2 = s.enqueue .hi (encodeCmd d cr c2)) ∨
    (s.env.answers.txHiOk = false ∧ s.replyFrame d cr c2 = s.logEvent .replyDrop) := by
  unfold State.replyFrame
  cases h : s.env.answers.txHiOk <;> simp

/-- The output after a reply: only TX_HI and the trace can have grown. -/
theorem State.replyFrame_out (d : Dlci) (cr : Bool) (c2 : Byte) :
    (s.replyFrame d cr c2).out =
      if s.env.answers.txHiOk = true then { s.out with txHi := s.out.txHi ++ [encodeCmd d cr c2] }
      else { s.out with events := s.out.events ++ [.replyDrop] } := by
  rcases s.replyFrame_cases d cr c2 with ⟨h, h1⟩ | ⟨h, h1⟩ <;> rw [h1] <;> simp [h]

/-- The offer of a held operation, once and for all its cases (R65, R210, R213). -/
theorem State.offerNext_cases :
    (s.held = none ∧ s.offerNext = s) ∨
    (∃ op, s.held = some op ∧ op.frames = [] ∧ s.offerNext = ({ s with held := none }).reply op.reply) ∨
    (∃ op f fs, s.held = some op ∧ op.frames = f :: fs ∧ s.env.answers.txAccept = false ∧ s.offerNext = s) ∨
    (∃ op f, s.held = some op ∧ op.frames = [f] ∧ s.env.answers.txAccept = true ∧
      s.offerNext = (({ s with held := none }).enqueue op.queue f).reply op.reply) ∨
    (∃ op f g fs, s.held = some op ∧ op.frames = f :: g :: fs ∧ s.env.answers.txAccept = true ∧
      s.offerNext = ({ s with held := some { op with frames := g :: fs } }).enqueue op.queue f) := by
  unfold State.offerNext
  cases hh : s.held with
  | none => exact .inl ⟨rfl, rfl⟩
  | some op =>
    obtain ⟨q, frames, r⟩ := op
    cases frames with
    | nil => exact .inr (.inl ⟨_, rfl, rfl, rfl⟩)
    | cons f fs =>
      cases ha : s.env.answers.txAccept with
      | false => exact .inr (.inr (.inl ⟨_, f, fs, rfl, rfl, rfl, by simp⟩))
      | true =>
        cases fs with
        | nil => exact .inr (.inr (.inr (.inl ⟨_, f, rfl, rfl, rfl, by simp⟩)))
        | cons g fs => exact .inr (.inr (.inr (.inr ⟨_, f, g, fs, rfl, rfl, rfl, by simp⟩)))

/-- In CMD a frame instruction captures its control byte (R163). -/
theorem frameInstr_cmd (c : Byte) (close : State → Result) (h : s.rx.rxState = .cmd) :
    frameInstr c close s = .next (s.captureControl c) := by
  simp [frameInstr, h]

/-- Elsewhere it closes its frame (R170, R171). -/
theorem frameInstr_close (c : Byte) (close : State → Result) (h : s.rx.rxState ≠ .cmd) :
    frameInstr c close s = close s := by
  simp [frameInstr, h]

/-- The manager's operand carries the DLCI and the CR bit of the address (R89, R195). -/
theorem dcDlci_addrDc (a : Byte) : dcDlci (addrDc a) = addrDlci a := by
  revert a; decide

theorem dcCr_addrDc (a : Byte) : dcCr (addrDc a) = addrCr a := by
  revert a; decide

/-- A segmented payload is never empty (R146). -/
theorem segments_ne_nil (p : List Byte) (mtu : Nat) (h : 1 ≤ mtu) : segments p mtu ≠ [] := by
  unfold segments
  split
  · simp
  · rename_i hp
    have : 0 < (p.length + mtu - 1) / mtu := Nat.div_pos (by omega) (by omega)
    simp only [ne_eq, List.map_eq_nil_iff, List.range_eq_nil]
    omega

end Sys2Proof.Machine
end

