-- ==== Sys2Proof/Laws/PerInstr.lean ====
section
/-! SUPPORT. The family EncodedOpcode: the code of every well-formed instruction carries its row of the opcode table
(spec 30_encoding.md R83, R91, R96), one lemma per constructor. -/

namespace Sys2Proof.Laws.EncodedOpcode

/-- The mask and the match of an instruction's row in spec/opcode_table.json. -/
def row : Instr → Code × Code
  | .ui _ => (.ctrl 0xEF#8, .ctrl 0x03#8)
  | .uih _ => (.ctrl 0xEF#8, .ctrl 0xEF#8)
  | .sabm _ => (.ctrl 0xEF#8, .ctrl 0x2F#8)
  | .ua _ => (.ctrl 0xEF#8, .ctrl 0x63#8)
  | .dm _ => (.ctrl 0xEF#8, .ctrl 0x0F#8)
  | .disc _ => (.ctrl 0xEF#8, .ctrl 0x43#8)
  | .other _ => (.ctrl 0x00#8, .ctrl 0x00#8)
  | .sendCmd _ _ _ => (.host 0xF0000000#32, .host 0x10000000#32)
  | .sendData _ _ => (.host 0xF0000000#32, .host 0x20000000#32)
  | .cfgChan _ _ _ => (.host 0xF0000000#32, .host 0x30000000#32)
  | .bindQueue _ _ _ => (.host 0xF0000000#32, .host 0x40000000#32)
  | .setConn _ _ => (.host 0xF0000000#32, .host 0x50000000#32)
  | .readChan _ => (.host 0xF0000000#32, .host 0x60000000#32)
  | .readStatus => (.host 0xF0000000#32, .host 0x70000000#32)
  | .ackDisc0 => (.host 0xF0000000#32, .host 0x80000000#32)
  | .setMuxEn _ => (.host 0xF0000000#32, .host 0x90000000#32)
  | .reservedOp0 => (.host 0xF0000000#32, .host 0x00000000#32)
  | .reservedOpA => (.host 0xF0000000#32, .host 0xA0000000#32)
  | .reservedOpB => (.host 0xF0000000#32, .host 0xB0000000#32)
  | .reservedOpC => (.host 0xF0000000#32, .host 0xC0000000#32)
  | .reservedOpD => (.host 0xF0000000#32, .host 0xD0000000#32)
  | .reservedOpE => (.host 0xF0000000#32, .host 0xE0000000#32)
  | .reservedOpF => (.host 0xF0000000#32, .host 0xF0000000#32)

/-- `c` has the row's format and, under its mask, its match. -/
def carries (c : Code) (r : Code × Code) : Prop :=
  match c, r with
  | .ctrl c, (.ctrl mask, .ctrl pattern) => c &&& mask = pattern
  | .host w, (.host mask, .host pattern) => w &&& mask = pattern
  | _, _ => False

/-- A well-formed instruction's code carries its row; an OTHER byte, whose row matches every byte, carries none of the
six rows before it (R96). -/
def Statement (i : Instr) : Prop :=
  i.wf = true → carries (encode i) (row i) ∧
    ∀ c, i = .other c → ∀ t ∈ [typeUI, typeUIH, typeSABM, typeUA, typeDM, typeDISC], c &&& 0xEF#8 ≠ t

/-- The op code of an assembled host word is its top four bits. -/
theorem hostWord_op (op : BitVec 4) (d : Dlci) (cr b : Bool) (arg : BitVec 16) :
    hostWord op d cr b arg &&& 0xF0000000#32 = op.zeroExtend 32 <<< 28 := by
  apply BitVec.eq_of_getLsbD_eq
  intro i hi
  simp only [hostWord, BitVec.getLsbD_and, BitVec.getLsbD_append, BitVec.getLsbD_shiftLeft, BitVec.getLsbD_setWidth]
  interval_cases i <;> simp

/-- What a control byte of a named type carries. -/
theorem ctrlByte_type (t : Byte) (pf : Bool) (h : t &&& 0x10#8 = 0#8) : ctrlByte t pf &&& 0xEF#8 = t := by
  have h1 : (t ||| 0x10#8) &&& 0xEF#8 = t &&& 0xEF#8 := by
    rw [BitVec.and_comm, BitVec.and_or_distrib_left, BitVec.and_comm]; simp
  have h2 : t &&& 0xEF#8 = t := by
    have h3 : t &&& (0xEF#8 ||| 0x10#8) = t := BitVec.and_allOnes
    rwa [BitVec.and_or_distrib_left, h, BitVec.or_zero] at h3
  cases pf
  · simpa [ctrlByte] using h2
  · exact h1.trans h2

theorem ui (pf : Bool) : Statement (.ui pf) := fun _ => ⟨ctrlByte_type _ pf (by decide), nofun⟩
theorem uih (pf : Bool) : Statement (.uih pf) := fun _ => ⟨ctrlByte_type _ pf (by decide), nofun⟩
theorem sabm (pf : Bool) : Statement (.sabm pf) := fun _ => ⟨ctrlByte_type _ pf (by decide), nofun⟩
theorem ua (pf : Bool) : Statement (.ua pf) := fun _ => ⟨ctrlByte_type _ pf (by decide), nofun⟩
theorem dm (pf : Bool) : Statement (.dm pf) := fun _ => ⟨ctrlByte_type _ pf (by decide), nofun⟩
theorem disc (pf : Bool) : Statement (.disc pf) := fun _ => ⟨ctrlByte_type _ pf (by decide), nofun⟩
theorem other (c : Byte) : Statement (.other c) := by
  intro h
  refine ⟨BitVec.and_zero, ?_⟩
  rintro _ ⟨⟩ t ht hc
  subst hc
  simp_all [Instr.wf, namesNoFrameType, typeUI, typeUIH, typeSABM, typeUA, typeDM, typeDISC]
theorem sendCmd (d : Dlci) (cr : Bool) (c : Byte) : Statement (.sendCmd d cr c) := fun _ => ⟨(hostWord_op ..).trans (by decide), nofun⟩
theorem sendData (d : Dlci) (cr : Bool) : Statement (.sendData d cr) := fun _ => ⟨(hostWord_op ..).trans (by decide), nofun⟩
theorem cfgChan (d : Dlci) (m : Mode) (mtu : Mtu) : Statement (.cfgChan d m mtu) := fun _ => ⟨(hostWord_op ..).trans (by decide), nofun⟩
theorem bindQueue (d : Dlci) (bind : Bool) (h : Handle) : Statement (.bindQueue d bind h) := fun _ => ⟨(hostWord_op ..).trans (by decide), nofun⟩
theorem setConn (d : Dlci) (v : Bool) : Statement (.setConn d v) := fun _ => ⟨(hostWord_op ..).trans (by decide), nofun⟩
theorem readChan (d : Dlci) : Statement (.readChan d) := fun _ => ⟨(hostWord_op ..).trans (by decide), nofun⟩
theorem readStatus : Statement .readStatus := fun _ => ⟨(hostWord_op ..).trans (by decide), nofun⟩
theorem ackDisc0 : Statement .ackDisc0 := fun _ => ⟨(hostWord_op ..).trans (by decide), nofun⟩
theorem setMuxEn (en : Bool) : Statement (.setMuxEn en) := fun _ => ⟨(hostWord_op ..).trans (by decide), nofun⟩
theorem reservedOp0 : Statement .reservedOp0 := fun _ => ⟨(hostWord_op ..).trans (by decide), nofun⟩
theorem reservedOpA : Statement .reservedOpA := fun _ => ⟨(hostWord_op ..).trans (by decide), nofun⟩
theorem reservedOpB : Statement .reservedOpB := fun _ => ⟨(hostWord_op ..).trans (by decide), nofun⟩
theorem reservedOpC : Statement .reservedOpC := fun _ => ⟨(hostWord_op ..).trans (by decide), nofun⟩
theorem reservedOpD : Statement .reservedOpD := fun _ => ⟨(hostWord_op ..).trans (by decide), nofun⟩
theorem reservedOpE : Statement .reservedOpE := fun _ => ⟨(hostWord_op ..).trans (by decide), nofun⟩
theorem reservedOpF : Statement .reservedOpF := fun _ => ⟨(hostWord_op ..).trans (by decide), nofun⟩

end Sys2Proof.Laws.EncodedOpcode
end

