-- ==== Sys2Proof/Laws/Step.lean ====
section
/-! SUPPORT. What a step can do, once: the inversion of `step`, `rxStep` and `hostStep`. -/

namespace Sys2Proof.Machine

variable (s : State)

theorem step_rx (b : Byte) (a : Answers) (rest : List Turn) (h : s.env.turns = .rx b a :: rest) :
    step s = rxStep b (s.beginTurn rest a) := by
  simp [step, h]

theorem step_host (a : Answers) (rest : List Turn) (h : s.env.turns = .host a :: rest) :
    step s = hostStep (s.beginTurn rest a) := by
  simp [step, h]

/-- A step is idle, an RX step, a host step or a reset (R12, R69, R255, R271). -/
theorem step_cases (t : State) (h : step s = .next t) :
    (s.env.turns = [] ∧ t = s) ∨
    (∃ b a rest, s.env.turns = .rx b a :: rest ∧ rxStep b (s.beginTurn rest a) = .next t) ∨
    (∃ a rest, s.env.turns = .host a :: rest ∧ hostStep (s.beginTurn rest a) = .next t) ∨
    (∃ rest, s.env.turns = .reset :: rest ∧ t = (s.beginTurn rest s.env.answers).resetBlock) := by
  unfold step at h
  split at h <;> rename_i ht
  · cases h; exact .inl ⟨ht, rfl⟩
  · exact .inr (.inl ⟨_, _, _, ht, h⟩)
  · exact .inr (.inr (.inl ⟨_, _, ht, h⟩))
  · cases h; exact .inr (.inr (.inr ⟨_, ht, rfl⟩))

/-- A host step offers the held operation's next frame, is idle, or issues the next operation (R210, R213). -/
theorem hostStep_cases (t : State) (h : hostStep s = .next t) :
    ((∃ op, s.held = some op) ∧ t = s.offerNext) ∨
    (s.held = none ∧ s.env.hostOps = [] ∧ t = s) ∨
    (∃ op rest, s.held = none ∧ s.env.hostOps = op :: rest ∧
      exec (decodeHost op.word) { s with env := { s.env with hostOps := rest, payload := op.payload } } = .next t) := by
  unfold hostStep at h
  split at h <;> rename_i hh
  · cases h; exact .inl ⟨⟨_, hh⟩, rfl⟩
  · split at h <;> rename_i ho
    · cases h; exact .inr (.inl ⟨hh, ho, rfl⟩)
    · exact .inr (.inr ⟨_, _, hh, ho, h⟩)

/-- A DATA step loses the byte of a discarded frame, or stores that of a kept one below SCRATCH_CAP (R167, R168). -/
theorem rxData_cases (b : Byte) (t : State) (h : rxData b s = .next t) :
    (s.rx.q = none ∧ t = rxCount s) ∨
    (s.rx.q ≠ none ∧ s.rx.cnt.toNat < s.cfg.scratchCap ∧
      t = rxCount { s with rx := { s.rx with
        buf := s.rx.buf.write s.rx.cnt.toNat b
        fcs := if ftype s.rx.ctrl = typeUI then upd s.rx.fcs b else s.rx.fcs } }) := by
  unfold rxData at h
  split at h <;> rename_i hq
  · cases h; exact .inl ⟨hq, rfl⟩
  · split at h <;> rename_i hc
    · cases h
    · cases h; exact .inr ⟨by simp [hq], Nat.not_le.mp hc, rfl⟩

/-- A kept frame's DATA step below SCRATCH_CAP goes on (R168). -/
theorem rxData_kept (b : Byte) (hq : s.rx.q ≠ none) (hc : s.rx.cnt.toNat < s.cfg.scratchCap) :
    rxData b s = .next (rxCount { s with rx := { s.rx with
        buf := s.rx.buf.write s.rx.cnt.toNat b
        fcs := if ftype s.rx.ctrl = typeUI then upd s.rx.fcs b else s.rx.fcs } }) := by
  obtain ⟨h, hh⟩ := Option.ne_none_iff_exists'.mp hq
  unfold rxData
  rw [hh]
  simp only
  rw [if_neg (Nat.not_le.mpr hc)]

/-- A byte in FLAG_EXPECTED ends the frame: framing error, the control byte's action, or FCS error (R170-R172). -/
theorem rxFlag_cases (b : Byte) (t : State) (h : rxFlag b s = .next t) :
    (b ≠ FLAG ∧ t = (s.setRxState .waitingAddress).logEvent .framing) ∨
    (b = FLAG ∧ s.rx.valid = true ∧ exec (decodeCtrl s.rx.ctrl) s = .next t) ∨
    (b = FLAG ∧ s.rx.valid = false ∧ t = (s.setRxState .waitingAddress).logEvent .fcs) := by
  unfold rxFlag at h
  split at h <;> rename_i hb
  · cases h; exact .inl ⟨hb, rfl⟩
  · cases hv : s.rx.valid with
    | true =>
      rw [hv, if_pos rfl] at h
      exact .inr (.inl ⟨Decidable.not_not.mp hb, rfl, h⟩)
    | false =>
      rw [hv, if_neg (by simp)] at h
      cases h
      exact .inr (.inr ⟨Decidable.not_not.mp hb, rfl, rfl⟩)

/-- An RX step, by the state it finds the FSM in (R160). -/
theorem rxStep_cases (b : Byte) (t : State) (h : rxStep b s = .next t) :
    (s.muxEn = false ∧ t = s.emitRaw b) ∨
    (s.muxEn = true ∧
      ((s.rx.rxState = .waitingAddress ∧ t = rxAddress b s) ∨
       (s.rx.rxState = .cmd ∧ exec (decodeCtrl b) s = .next t) ∨
       (s.rx.rxState = .len ∧ t = rxLen b s) ∨
       (s.rx.rxState = .lenExt ∧ t = rxLenExt b s) ∨
       (s.rx.rxState = .data ∧ rxData b s = .next t) ∨
       (s.rx.rxState = .fcsCheck ∧ t = rxFcs b s) ∨
       (s.rx.rxState = .flagExpected ∧ rxFlag b s = .next t))) := by
  unfold rxStep at h
  cases hm : s.muxEn with
  | false =>
    rw [hm, if_neg (by simp)] at h
    cases h
    exact .inl ⟨rfl, rfl⟩
  | true =>
    rw [hm, if_pos rfl] at h
    refine .inr ⟨rfl, ?_⟩
    cases hs : s.rx.rxState <;> rw [hs] at h <;> simp_all

end Sys2Proof.Machine
end

