-- ==== Sys2Proof/Laws/Run.lean ====
section
/-! SUPPORT. Runs of many steps, one step or one stretch at a time. -/

namespace Sys2Proof.Machine

/-- A run of any machine whose first step answers a next state is that step and the rest of the run. -/
theorem runOf_step (M : Host.Core) (n : Nat) (s t : M.State) (h : M.step s = .next t) : M.run (n + 1) s = M.run n t := by
  simp [Host.Core.run, h]

/-- A run of any machine that reaches a state goes on from it. -/
theorem runOf_add (M : Host.Core) (m n : Nat) (s t : M.State) (h : M.run m s = .next t) : M.run (m + n) s = M.run n t := by
  induction m generalizing s with
  | zero => cases h; rw [Nat.zero_add]
  | succ m ih =>
    cases hu : M.step s with
    | next u =>
      rw [runOf_step M m s u hu] at h
      rw [show m + 1 + n = m + n + 1 by omega, runOf_step M _ s u hu]
      exact ih u h
    | fault r => simp [Host.Core.run, hu] at h
    | refused r => simp [Host.Core.run, hu] at h

theorem run_zero (s : State) : Sys2Proof.core.run 0 s = Host.Outcome.next (σ := State) s := rfl

theorem run_step (n : Nat) (s t : State) (h : step s = .next t) :
    Sys2Proof.core.run (n + 1) s = Sys2Proof.core.run n t :=
  runOf_step Sys2Proof.core n s t h

theorem run_add (m n : Nat) (s t : State) (h : Sys2Proof.core.run m s = Host.Outcome.next (σ := State) t) :
    Sys2Proof.core.run (m + n) s = Sys2Proof.core.run n t :=
  runOf_add Sys2Proof.core m n s t h

end Sys2Proof.Machine
end

