-- ==== Sys2Proof/Tests/Slice0.lean ====
section
/-! SUPPORT. Tests. Expected values are the spec's: the examples of its rules and the vectors V-* of 95_test_vectors.md,
named in each comment. The last part shows, for every obligation with hypotheses, a concrete state that meets them. -/

namespace Sys2Proof.Tests

open Sys2Proof.Machine Sys2Proof.Safety

/-! ## A small state -/

/-- Environment answers: ten bytes free, TX_HI accepts. -/
def yes : Answers := { qFree := 10, txHiOk := true, txAccept := true }

/-- Environment answers: two bytes free, both transmit queues full. -/
def no : Answers := { qFree := 2, txHiOk := false, txAccept := false }

/-- DLCI 3 as in S0 of 95_test_vectors.md. -/
def chan3 : Channel := { connected := true, mode := .uih, mtu := 32, queue := some 7 }

/-- Reset, DLCI 3 configured, multiplexing on, and the given decoder context and schedule. -/
def at3 (rx : Decoder) (turns : List Turn) : State :=
  { State.reset.setChan 3 chan3 with
    muxEn := true
    rx := rx
    env := { State.reset.env with turns := turns, answers := yes } }

/-- A decoder context in state `r`, with address byte, control byte and accumulator. -/
def ctx (r : RxState) (addr ctrl fcs : Byte) : Decoder :=
  { Decoder.reset with rxState := r, addr := addr, ctrl := ctrl, fcs := fcs, q := some 7, valid := true }

/-- The PING frame (§1.1) with all four payload bytes received. -/
def ping (r : RxState) (fcs : Byte) : Decoder :=
  { ctx r 0x0D 0xEF fcs with size := 4, cnt := 4, buf := [(0, 0x50), (1, 0x49), (2, 0x4E), (3, 0x47)] }

/-- One received byte. -/
def rx1 (rx : Decoder) (b : Byte) (a : Answers) : State := at3 rx [.rx b a]

/-- One host operation on the free port. -/
def host1 (w : HostWord) (p : List Byte) (a : Answers) : State :=
  { at3 (ctx .waitingAddress 0 0 0) [.host a] with
    env := { turns := [.host a], hostOps := [{ word := w, payload := p }], answers := yes, payload := [] } }

/-- The step answers a next state, and `p` holds of it. -/
def gives (s : State) (p : State → Bool) : Bool :=
  match step s with
  | .next t => p t
  | _ => false

/-! ## WellFormed: every named frame type is refused as an OTHER byte, P/F clear or set -/

theorem test_wf_other_ui : (Instr.other 0x03).wf = false ∧ (Instr.other 0x13).wf = false := by decide
theorem test_wf_other_uih : (Instr.other 0xEF).wf = false ∧ (Instr.other 0xFF).wf = false := by decide
theorem test_wf_other_sabm : (Instr.other 0x2F).wf = false ∧ (Instr.other 0x3F).wf = false := by decide
theorem test_wf_other_ua : (Instr.other 0x63).wf = false ∧ (Instr.other 0x73).wf = false := by decide
theorem test_wf_other_dm : (Instr.other 0x0F).wf = false ∧ (Instr.other 0x1F).wf = false := by decide
theorem test_wf_other_disc : (Instr.other 0x43).wf = false ∧ (Instr.other 0x53).wf = false := by decide
theorem test_wf_other_e9 : (Instr.other 0xE9).wf = true := by decide

/-! ## Decoding: words written out from R82, R83 (type bits 7:5 and 3:0, P/F bit 4) and R90, R91 (op, dlci, cr, b,
reserved, arg) -/

theorem test_decode_ui : decodeCtrl 0b000_0_0011 = .ui false ∧ decodeCtrl 0b000_1_0011 = .ui true := by decide
theorem test_decode_uih : decodeCtrl 0b111_0_1111 = .uih false ∧ decodeCtrl 0b111_1_1111 = .uih true := by decide
theorem test_decode_sabm : decodeCtrl 0b001_0_1111 = .sabm false ∧ decodeCtrl 0b001_1_1111 = .sabm true := by decide
theorem test_decode_ua : decodeCtrl 0b011_0_0011 = .ua false ∧ decodeCtrl 0b011_1_0011 = .ua true := by decide
theorem test_decode_dm : decodeCtrl 0b000_0_1111 = .dm false ∧ decodeCtrl 0b000_1_1111 = .dm true := by decide
theorem test_decode_disc : decodeCtrl 0b010_0_0011 = .disc false ∧ decodeCtrl 0b010_1_0011 = .disc true := by decide
theorem test_decode_other : decodeCtrl 0b111_0_1001 = .other 0xE9 ∧ decodeCtrl 0b111_1_1001 = .other 0xF9 := by decide
/-- W=0x10E00053 -/
theorem test_decode_sendCmd : decodeHost 0b0001_000011_1_0_0000_0000000001010011 = .sendCmd 3 true 0x53 := by decide
/-- W=0x20C00000 -/
theorem test_decode_sendData : decodeHost 0b0010_000011_0_0_0000_0000000000000000 = .sendData 3 false := by decide
/-- W=0x30900008 (UI) and W=0x30CF0020 (V-H13, bits 19:16 set) -/
theorem test_decode_cfgChan : decodeHost 0b0011_000010_0_1_0000_0000000000001000 = .cfgChan 2 .ui 8 ∧
    decodeHost 0b0011_000011_0_0_1111_0000000000100000 = .cfgChan 3 .uih 32 := by decide
/-- W=0x40D00007 -/
theorem test_decode_bindQueue : decodeHost 0b0100_000011_0_1_0000_0000000000000111 = .bindQueue 3 true 7 := by decide
/-- W=0x50D00000 and W=0x50C00000 -/
theorem test_decode_setConn : decodeHost 0b0101_000011_0_1_0000_0000000000000000 = .setConn 3 true ∧
    decodeHost 0b0101_000011_0_0_0000_0000000000000000 = .setConn 3 false := by decide
/-- W=0x60C00000 -/
theorem test_decode_readChan : decodeHost 0b0110_000011_0_0_0000_0000000000000000 = .readChan 3 := by decide
theorem test_decode_readStatus : decodeHost 0b0111_000000_0_0_0000_0000000000000000 = .readStatus := by decide
theorem test_decode_ackDisc0 : decodeHost 0b1000_000000_0_0_0000_0000000000000000 = .ackDisc0 := by decide
/-- W=0x90100000 and W=0x90000000 -/
theorem test_decode_setMuxEn : decodeHost 0b1001_000000_0_1_0000_0000000000000000 = .setMuxEn true ∧
    decodeHost 0b1001_000000_0_0_0000_0000000000000000 = .setMuxEn false := by decide
theorem test_decode_reserved : decodeHost 0x00000000 = .reservedOp0 ∧ decodeHost 0xA0000000 = .reservedOpA ∧
    decodeHost 0xB0000000 = .reservedOpB ∧ decodeHost 0xC0000000 = .reservedOpC ∧ decodeHost 0xD0000000 = .reservedOpD ∧
    decodeHost 0xE0000000 = .reservedOpE ∧ decodeHost 0xF0000000 = .reservedOpF := by decide
theorem test_decodeTableWord : decodeTableWord 8 0x2F = some (.sabm false) ∧ decodeTableWord 32 0x90100000 =
    some (.setMuxEn true) ∧ decodeTableWord 40 0 = none := by decide
/-- The encoder writes the words of R211's and R216's examples. -/
theorem test_encode : encode (.sendCmd 0 true 0x3F) = .host 0x1020003F ∧ encode (.bindQueue 3 true 7) = .host 0x40D00007 ∧
    encode (.cfgChan 2 .ui 8) = .host 0x30900008 ∧ encode (.dm true) = .ctrl 0x1F := by decide

/-! ## The CRC engine and the frame encoder (§2.1-§2.4) -/

theorem test_crc_ping_header : crcFold 0xFF [0x0D, 0xEF, 0x09] = 0xE2 ∧ crcCompute [0x0D, 0xEF, 0x09] = 0x1D ∧
    crcVerify [0x0D, 0xEF, 0x09] 0x1D = true ∧ crcVerify [0x0D, 0xEF, 0x09] 0x1C = false := by decide
/-- R127 on the PING frame: a flip in the length byte's value, and one in the FCS byte (1.4, 2.7). -/
theorem test_crc_flips : flipAt [0x0D, 0xEF, 0x09] 2 1 = [0x0D, 0xEF, 0x0B] ∧ flipBit 0x1D 0 = 0x1C ∧
    crcVerify (flipAt [0x0D, 0xEF, 0x09] 2 1) 0x1D = false := by decide
theorem test_crc_check_value : crcFold 0xFF [0x31, 0x32, 0x33, 0x34, 0x35, 0x36, 0x37, 0x38, 0x39] = 0xD0 := by decide
theorem test_encLen : encLen 0 = [0x01] ∧ encLen 127 = [0xFF] ∧ encLen 128 = [0x00, 0x01] ∧ encLen 300 = [0x58, 0x02] ∧
    encLen 32767 = [0xFE, 0xFF] := by decide
theorem test_encodeCmd_disc : encodeCmd 3 true 0x53 = [0xF9, 0x0F, 0x53, 0x22, 0xF9] := by decide
theorem test_encodeData_uih : encodeData 3 true .uih [0x50, 0x49, 0x4E, 0x47] =
    [0xF9, 0x0F, 0xEF, 0x09, 0x50, 0x49, 0x4E, 0x47, 0x7C, 0xF9] := by decide
theorem test_encodeData_ui : encodeData 2 true .ui [0x41, 0x42] = [0xF9, 0x0B, 0x03, 0x05, 0x41, 0x42, 0x38, 0xF9] := by
  decide
/-- §2.9: 70 bytes at MTU 32. -/
theorem test_segments : (segments (List.replicate 70 0x41) 32).map List.length = [32, 32, 6] ∧ segments [] 32 = [[]] := by
  decide

/-! ## The receive FSM, byte by byte (the trace of §1.1 and the examples of R160-R172) -/

theorem test_rx_raw : gives { rx1 (ctx .len 0 0 0) 0xF9 yes with muxEn := false } (fun t =>
    t.out.rawOut == [0xF9] && t.rx == ctx .len 0 0 0) = true := by decide
theorem test_rx_address : gives (rx1 Decoder.reset 0x0D yes) (fun t =>
    t.rx.rxState == .cmd && t.rx.addr == 0x0D && t.rx.fcs == 0x57 && t.rx.q == some 7 && t.rx.valid) = true := by decide
theorem test_rx_ignored : gives (rx1 Decoder.reset 0xF9 yes) (fun t => t.rx == Decoder.reset) = true ∧
    gives (rx1 Decoder.reset 0x02 yes) (fun t => t.rx == Decoder.reset && t.out.events == []) = true := by decide
theorem test_rx_len : gives (rx1 (ctx .len 0x0D 0xEF 0xCA) 0x09 yes) (fun t =>
    t.rx.rxState == .data && t.rx.fcs == 0xE2 && t.rx.size == 4 && t.rx.cnt == 0 && t.rx.q == some 7) = true := by decide
/-- R127, 2.7: three flips of PING that move a boundary (address EA, length EA, command instead of data). -/
theorem test_rx_flips_move_boundaries :
    gives (rx1 Decoder.reset (flipBit 0x0D 0) yes) (fun t => t.rx.rxState == .waitingAddress) = true ∧
    gives (rx1 (ctx .len 0x0D 0xEF 0xCA) (flipBit 0x09 0) yes) (fun t => t.rx.rxState == .lenExt) = true ∧
    gives (rx1 (ctx .cmd 0x0D 0 0x57) (flipBit 0xEF 0) yes) (fun t => t.rx.rxState == .fcsCheck) = true := by decide
/-- R166: size 33 on MTU 32 (V-R3). -/
theorem test_rx_len_oversize : gives (rx1 (ctx .len 0x0D 0xEF 0xCA) 0x43 yes) (fun t =>
    t.rx.rxState == .data && t.rx.size == 33 && t.rx.q == none) = true := by decide
/-- R165: the bytes 00 01 give size 128. -/
theorem test_rx_lenExt : gives (rx1 (ctx .lenExt 0x0D 0xEF 0) 0x01 yes) (fun t => t.rx.size == 128) = true := by decide
theorem test_rx_data_uih : gives (rx1 { ctx .data 0x0D 0xEF 0xE2 with size := 4 } 0x50 yes) (fun t =>
    t.rx.rxState == .data && t.rx.buf.read 0 == 0x50 && t.rx.fcs == 0xE2 && t.rx.cnt == 1) = true := by decide
/-- V-F3: a UI payload byte is folded. -/
theorem test_rx_data_ui : gives (rx1 { ctx .data 0x0B 0x03 0x70 with size := 2, cnt := 1, buf := [(0, 0x41)] } 0x42 yes)
    (fun t => t.rx.rxState == .fcsCheck && t.rx.buf == [(0, 0x41), (1, 0x42)] && t.rx.fcs == 0xC7) = true := by decide
theorem test_rx_fcs : gives (rx1 (ping .fcsCheck 0xE2) 0x1D yes) (fun t =>
      t.rx.rxState == .flagExpected && t.rx.fcs == 0xCF && t.rx.valid) = true ∧
    gives (rx1 (ping .fcsCheck 0xE2) 0x1C yes) (fun t => t.rx.fcs == 0x5E && !t.rx.valid) = true := by decide
theorem test_rx_framing : gives (rx1 (ping .flagExpected 0xCF) 0x00 yes) (fun t =>
    t.rx.rxState == .waitingAddress && t.out.events == [.framing] && t.out.pushed == []) = true := by decide

/-! ## Frame instructions: one step each, in CMD and at the closing flag -/

/-- V-F8: 13 (UI|PF) is a data frame's control byte. -/
theorem test_ui_cmd : gives (rx1 (ctx .cmd 0x0D 0 0x57) 0x13 yes) (fun t =>
    t.rx.rxState == .len && t.rx.ctrl == 0x13) = true := by decide
/-- V-F3: 41 42 go to the queue; the unlisted byte after them does not. -/
theorem test_ui_deliver : gives (rx1 { ctx .flagExpected 0x0D 0x03 0xCF with
    size := 2, cnt := 2, buf := [(0, 0x41), (1, 0x42), (2, 0x43)] } 0xF9 yes) (fun t =>
      t.out.pushed == [(7, 0x41), (7, 0x42)] && t.rx.rxState == .waitingAddress) = true := by decide
theorem test_uih_deliver : gives (rx1 (ping .flagExpected 0xCF) 0xF9 yes) (fun t =>
    t.queueBytes 7 == [0x50, 0x49, 0x4E, 0x47] && t.rxDropCount == 0 && t.out.events == []) = true := by decide
/-- V-R6: two bytes of room. -/
theorem test_uih_queue_full : gives (rx1 (ping .flagExpected 0xCF) 0xF9 no) (fun t =>
    t.queueBytes 7 == [0x50, 0x49] && t.rxDropCount == 2 && t.out.events == [.qFull]) = true := by decide
/-- V-M3. -/
theorem test_sabm : gives (rx1 (ctx .flagExpected 0x15 0x3F 0xCF) 0xF9 yes) (fun t =>
    (t.chan 5).connected && t.out.txHi == [encodeCmd 5 false 0x73]) = true := by decide
/-- V-M24: the reply is lost, the channel is connected. -/
theorem test_sabm_reply_drop : gives (rx1 (ctx .flagExpected 0x0F 0x3F 0xCF) 0xF9 no) (fun t =>
    (t.chan 3).connected && t.out.txHi == [] && t.out.events == [.replyDrop]) = true := by decide
/-- V-M6. -/
theorem test_disc_connected : gives (rx1 (ctx .flagExpected 0x0F 0x53 0xCF) 0xF9 yes) (fun t =>
    !(t.chan 3).connected && t.out.txHi == [[0xF9, 0x0F, 0x73, 0x1A, 0xF9]] && !t.disc0Pending) = true := by decide
/-- V-M13. -/
theorem test_disc0_not_connected : gives (rx1 (ctx .flagExpected 0x01 0x53 0xCF) 0xF9 yes) (fun t =>
    t.disc0Pending && t.out.txHi == [[0xF9, 0x01, 0x1F, 0x1E, 0xF9]]) = true := by decide
/-- V-M17. -/
theorem test_ua : gives (rx1 (ctx .flagExpected 0x0D 0x73 0xCF) 0xF9 yes) (fun t =>
    t.uaCount == 1 && t.dmCount == 0 && t.out.txHi == []) = true := by decide
/-- R193, R35: the counter wraps. -/
theorem test_dm_wraps : gives { rx1 (ctx .flagExpected 0x03 0x0F 0xCF) 0xF9 yes with dmCount := 0xFFFFFFFF } (fun t =>
    t.dmCount == 0 && t.uaCount == 0) = true := by decide
/-- V-M21. -/
theorem test_other : gives (rx1 (ctx .flagExpected 0x03 0xE9 0xCF) 0xF9 yes) (fun t =>
    t.out.events == [.otherCmd] && t.out.txHi == []) = true := by decide
/-- R163: F9 in CMD is a control byte. -/
theorem test_other_cmd : gives (rx1 (ctx .cmd 0x03 0 0xBD) 0xF9 yes) (fun t =>
    t.rx.rxState == .fcsCheck && t.rx.ctrl == 0xF9) = true := by decide

/-! ## Host operations (§2.10) -/

/-- V-H2. -/
theorem test_sendCmd : gives (host1 0x10E00053 [] yes) (fun t => t.out.txHi == [[0xF9, 0x0F, 0x53, 0x22, 0xF9]] &&
    t.out.replies == [{ status := .ok, data := .none }] && (t.chan 3).connected && t.held == none) = true := by decide
theorem test_sendCmd_held : gives (host1 0x10E00053 [] no) (fun t => t.out.txHi == [] && t.out.replies == [] &&
    t.held.isSome) = true := by decide
/-- V-H6. -/
theorem test_sendData : gives (host1 0x20C00000 [0x50, 0x49, 0x4E, 0x47] yes) (fun t =>
    t.out.txLo == [[0xF9, 0x0D, 0xEF, 0x09, 0x50, 0x49, 0x4E, 0x47, 0x1D, 0xF9]] && t.out.txHi == [] &&
    t.out.replies == [{ status := .ok, data := .accepted 4 }]) = true := by decide
/-- V-H5, on a channel whose MTU is 0. -/
theorem test_sendData_notReady : gives (host1 0x21000000 [0x50] yes) (fun t =>
    t.out.txLo == [] && t.out.replies == [{ status := .notReady, data := .none }]) = true := by decide
/-- V-H16: MTU = SCRATCH_CAP. -/
theorem test_cfgChan : gives (host1 0x3FC00100 [] yes) (fun t => (t.chan 63).mtu == 256) = true := by decide
/-- V-H15. -/
theorem test_cfgChan_range : gives (host1 0x30C00101 [] yes) (fun t =>
    t.chan 3 == chan3 && t.out.replies == [{ status := .mtuRange, data := .none }]) = true := by decide
theorem test_bindQueue : gives (host1 0x40D00009 [] yes) (fun t => (t.chan 3).queue == some 9) = true := by decide
theorem test_bindQueue_unbind : gives (host1 0x40C00009 [] yes) (fun t =>
    t.chan 3 == { chan3 with queue := none }) = true := by decide
theorem test_setConn : gives (host1 0x50C00000 [] yes) (fun t => t.chan 3 == { chan3 with connected := false }) = true := by
  decide
theorem test_readChan : gives (host1 0x60C00000 [] yes) (fun t =>
    t.out.replies == [{ status := .ok, data := .chan chan3 }]) = true := by decide
theorem test_readStatus : gives { host1 0x70000000 [] yes with uaCount := 1, dmCount := 2, rxDropCount := 3 } (fun t =>
    t.out.replies == [⟨.ok, .status ⟨1, 2, 3, false, true, .waitingAddress⟩⟩]) = true := by decide
theorem test_ackDisc0 : gives { host1 0x80000000 [] yes with disc0Pending := true } (fun t => !t.disc0Pending) = true := by
  decide
theorem test_setMuxEn_on : gives { host1 0x90100000 [] yes with muxEn := false, rx := ctx .data 0 0 0 } (fun t =>
    t.muxEn && t.rx.rxState == .waitingAddress) = true := by decide
theorem test_setMuxEn_off : gives { host1 0x90000000 [] yes with rx := ctx .data 0 0 0 } (fun t =>
    !t.muxEn && t.rx.rxState == .data) = true := by decide
theorem test_reservedOp0 : gives (host1 0x00000000 [] yes) (fun t =>
    t.out.replies == [{ status := .badOp, data := .none }]) = true := by decide
theorem test_reservedOpF : gives (host1 0xF0000000 [] yes) (fun t =>
    t.out.replies == [{ status := .badOp, data := .none }]) = true := by decide
theorem test_codes : Status.badOp.code = 3 ∧ Event.otherCmd.code = 7 ∧ RxState.flagExpected.code = 6 := by decide

/-! ## withFetchWord: the very next step after reset runs the instruction -/

theorem test_fetch_ua : gives (State.reset.withFetchWord 8 0x63) (fun t => t.uaCount == 1) = true := by decide
theorem test_fetch_setMuxEn : gives (State.reset.withFetchWord 32 0x90100000) (fun t => t.muxEn) = true := by decide

/-! ## Witnesses: a concrete state and operands that meet the hypotheses of each obligation, clause by clause -/

/-- The sample state meets the invariant in WAITING_ADDRESS, whatever is scheduled. -/
theorem at3_inv (rx : Decoder) (turns : List Turn) (h : rx.rxState = .waitingAddress) (hb : rx.buf = []) :
    Inv (at3 rx turns) := by
  refine ⟨(by decide : Config.initial.Ok), ?_, ?_, ?_, ?_, ?_, ?_, ?_, ?_, ?_⟩
  · show ∀ d : Dlci, ((State.reset.setChan 3 chan3).chan d).mtu.toNat ≤ 256
    decide
  · simp [at3, h]
  · show Memory.wf rx.buf
    rw [hb]
    decide
  · show ∀ x ∈ rx.buf, _
    rw [hb]
    nofun
  · simp [at3, h]
  · simp [at3, h]
  · simp [at3, h]
  · simp [at3, h]
  · nofun

/-- So does the sample state in CMD. -/
theorem at3_cmd_inv (turns : List Turn) : Inv (at3 (ctx .cmd 0x0D 0 0x57) turns) := by
  refine ⟨(by decide : Config.initial.Ok), ?_, (by decide : RxState.cmd ≠ .unused7), Memory.reset_wf, ?_, ?_, ?_, ?_, ?_, ?_⟩
  · show ∀ d : Dlci, ((State.reset.setChan 3 chan3).chan d).mtu.toNat ≤ 256
    decide
  all_goals simp [at3, ctx, Decoder.reset, State.reset, State.setChan]

/-- A payload byte is due: three of four received. -/
def data3 (n : Len15) : Decoder := { ping .data 0xE2 with cnt := n }

theorem witness_DecodeOfEncodeIsIdentity : (Instr.other 0x00).wf = true ∧ (Instr.ui true).wf = true := by decide
theorem witness_HostWordBitsNotUsedAreIgnored :
    (0x20C00000#32 &&& hostUsedBits 0x20C00000) = 0x20DF1234#32 &&& hostUsedBits 0x20C00000 := by decide
theorem witness_SingleBitChangesAreDetected : (2 < [0x0D#8, 0xEF, 0x09].length ∧ 7 < 8) ∧
    crcVerify [0x0D, 0xEF, 0x09] 0x1D = true := by decide
theorem witness_LengthFieldRoundTrip : (127 ≤ 32767 ∧ 127 ≤ 127) ∧ (32767 ≤ 32767 ∧ 127 < 128) := by decide
theorem witness_SegmentsCutThePayload : 1 ≤ 1 ∧ ([] : List Byte) = [] ∧ [0x41#8] ≠ [] := by decide
theorem witness_ResetInputKeepsTheEnvironment : (at3 (ping .data 0) [.reset]).env.turns = .reset :: [] := rfl
theorem witness_IdleKeepsTheState : (at3 (ping .data 0) []).env.turns = [] ∧
    (at3 (ping .data 0) [.host no]).env.turns = .host no :: [] ∧ (at3 (ping .data 0) [.host no]).held = none ∧
    (at3 (ping .data 0) [.host no]).env.hostOps = [] := ⟨rfl, rfl, rfl, rfl⟩
theorem witness_EveryStepKeepsTheInvariant : Inv (rx1 Decoder.reset 0x0D yes) ∧
    ∃ t, step (rx1 Decoder.reset 0x0D yes) = .next t := ⟨at3_inv _ _ rfl rfl, _, rfl⟩
theorem witness_NoStepEverStops : Inv (host1 0x90000000 [] yes) := by
  obtain ⟨h1, h2, h3, h4, h5, h6, h7, h8, h9, h10⟩ := at3_inv (ctx .waitingAddress 0 0 0) [.host yes] rfl rfl
  exact ⟨h1, h2, h3, h4, h5, h6, h7, h8, h9, h10⟩
/-- Two states in CMD that differ in the control byte, the length, the count and the buffer. -/
theorem witness_UnspecifiedFieldsNeverMatter :
    Agree (at3 (ctx .cmd 0x0D 0 0x57) [.rx 0xEF yes]) (at3 { ping .cmd 0x57 with ctrl := 0x13 } [.rx 0xEF yes]) ∧
    at3 (ctx .cmd 0x0D 0 0x57) [.rx 0xEF yes] ≠ at3 { ping .cmd 0x57 with ctrl := 0x13 } [.rx 0xEF yes] := by
  refine ⟨⟨rfl, rfl, rfl, rfl, rfl, rfl, rfl, rfl, rfl, rfl, rfl, ?_, ?_, ?_, ?_, ?_, by decide, ?_, ?_⟩, ?_⟩
  all_goals simp [at3, ctx, ping, Decoder.reset]
theorem witness_AnyResetValuesAgree : (ping .waitingAddress 0xCF).rxState = .waitingAddress ∧
    Memory.wf (ping .waitingAddress 0xCF).buf := by decide
theorem witness_StepRunsTheDecodedInstruction :
    ((rx1 (ctx .cmd 0x0D 0 0x57) 0xEF yes).env.turns = .rx 0xEF yes :: [] ∧
      (rx1 (ctx .cmd 0x0D 0 0x57) 0xEF yes).muxEn = true ∧ (rx1 (ctx .cmd 0x0D 0 0x57) 0xEF yes).rx.rxState = .cmd) ∧
    ((rx1 (ping .flagExpected 0xCF) 0xF9 yes).env.turns = .rx 0xF9 yes :: [] ∧
      (rx1 (ping .flagExpected 0xCF) 0xF9 yes).muxEn = true ∧
      (rx1 (ping .flagExpected 0xCF) 0xF9 yes).rx.rxState = .flagExpected ∧
      (rx1 (ping .flagExpected 0xCF) 0xF9 yes).rx.valid = true) ∧
    ((host1 0x80000000 [] yes).env.turns = .host yes :: [] ∧ (host1 0x80000000 [] yes).held = none ∧
      (host1 0x80000000 [] yes).env.hostOps = { word := 0x80000000, payload := [] } :: []) :=
  ⟨⟨rfl, rfl, rfl⟩, ⟨rfl, rfl, rfl, rfl⟩, rfl, rfl, rfl⟩
/-- Three states no run reaches: the unused FSM state, a count at SCRATCH_CAP, a declared length above it. -/
theorem witness_TheTwoStops :
    ((rx1 (ctx .unused7 0 0 0) 0 yes).muxEn = true ∧ (rx1 (ctx .unused7 0 0 0) 0 yes).rx.rxState = .unused7) ∧
    ((rx1 (data3 256) 0 yes).muxEn = true ∧ (rx1 (data3 256) 0 yes).rx.rxState = .data ∧
      (rx1 (data3 256) 0 yes).rx.q ≠ none ∧
      (rx1 (data3 256) 0 yes).cfg.scratchCap ≤ (rx1 (data3 256) 0 yes).rx.cnt.toNat) ∧
    (let s := rx1 { ping .flagExpected 0xCF with size := 257 } 0xF9 { yes with qFree := 300 }
     let t := s.beginTurn [] { yes with qFree := 300 }
     t.rx.rxState = .flagExpected ∧ t.rx.q ≠ none ∧ (t.chan (addrDlci t.rx.addr)).connected = true ∧
      t.cfg.scratchCap < min t.rx.size.toNat t.env.answers.qFree) := by decide
theorem witness_BytesGoRawWhileMuxIsOff :
    ({ rx1 (ctx .len 0 0 0) 0xF9 yes with muxEn := false } : State).muxEn = false ∧
    ({ rx1 (ctx .len 0 0 0) 0xF9 yes with muxEn := false } : State).env.turns = .rx 0xF9 yes :: [] := ⟨rfl, rfl⟩
/-- The hypotheses that the receive statements share: `b` is due, multiplexing is on, the FSM is in state `r`. -/
abbrev Due (s : State) (r : RxState) (b : Byte) : Prop :=
  s.env.turns = .rx b yes :: [] ∧ s.muxEn = true ∧ s.rx.rxState = r

theorem witness_AddressByteStartsAFrame : Due (rx1 (ctx .waitingAddress 0x0D 0xEF 0) 0xFB yes) .waitingAddress 0xFB ∧
    (0xFB#8 ≠ 0xF9#8) ∧ (0xFB#8).getLsbD 0 = true := by decide
theorem witness_FlagsAndNonAddressesAreIgnored :
    (Due (rx1 (ctx .waitingAddress 0x0D 0xEF 0) 0xF9 yes) .waitingAddress 0xF9 ∧ (0xF9#8 = 0xF9#8)) ∧
    (Due (rx1 (ctx .waitingAddress 0x0D 0xEF 0) 0xF8 yes) .waitingAddress 0xF8 ∧ (0xF8#8).getLsbD 0 = false) := by decide
theorem witness_ControlByteIsCapturedInCmd : (at3 (ctx .cmd 0x0D 0 0x57) []).rx.rxState = .cmd := rfl
theorem witness_FirstLengthByte :
    (Due (rx1 (ctx .len 0x0D 0xEF 0xCA) 0x00 yes) .len 0x00 ∧ (0x00#8).getLsbD 0 = false) ∧
    (Due (rx1 (ctx .len 0x0D 0xEF 0xCA) 0x01 yes) .len 0x01 ∧ (0x01#8).getLsbD 0 = true) := by decide
theorem witness_SecondLengthByte : Due (rx1 (ctx .lenExt 0x0D 0xEF 0xCA) 0xFF yes) .lenExt 0xFF := by decide
theorem witness_PayloadByteOfADiscardedFrame : Due (rx1 { data3 3 with q := none } 0x47 yes) .data 0x47 ∧
    (rx1 { data3 3 with q := none } 0x47 yes).rx.q = none := by decide
theorem witness_PayloadByteOfAKeptFrame : Due (rx1 (data3 255) 0x47 yes) .data 0x47 ∧
    (rx1 (data3 255) 0x47 yes).rx.q ≠ none ∧
    (rx1 (data3 255) 0x47 yes).rx.cnt.toNat < (rx1 (data3 255) 0x47 yes).cfg.scratchCap ∧
    Memory.wf (rx1 (data3 255) 0x47 yes).rx.buf := by decide
theorem witness_FcsByteIsChecked : Due (rx1 (ping .fcsCheck 0xE2) 0x1D yes) .fcsCheck 0x1D := by decide
theorem witness_BadClosingIsDiscarded :
    (Due (rx1 (ping .flagExpected 0xCF) 0xF8 yes) .flagExpected 0xF8 ∧ (0xF8#8 ≠ 0xF9#8)) ∧
    (Due (rx1 { ping .flagExpected 0x5E with valid := false } 0xF9 yes) .flagExpected 0xF9 ∧
      (rx1 { ping .flagExpected 0x5E with valid := false } 0xF9 yes).rx.valid = false) := by decide
/-- The three clauses: no destination, an unconnected data channel, a connected one with two bytes of room. -/
theorem witness_DataFrameIsDelivered :
    ((at3 { ping .flagExpected 0xCF with q := none } []).rx.rxState = .flagExpected ∧
      (at3 { ping .flagExpected 0xCF with q := none } []).rx.q = none) ∧
    (let s := at3 { ping .flagExpected 0xCF with addr := 0x11 } []
     s.rx.rxState = .flagExpected ∧ s.rx.q = some 7 ∧ ¬ (s.rx.addr.extractLsb' 2 6 = 0 ∨ (s.chan (s.rx.addr.extractLsb' 2 6)).connected = true)) ∧
    (let s := at3 (ping .flagExpected 0xCF) []
     s.rx.rxState = .flagExpected ∧ s.rx.q = some 7 ∧ (s.chan (s.rx.addr.extractLsb' 2 6)).connected = true ∧
      min s.rx.size.toNat s.env.answers.qFree ≤ s.cfg.scratchCap) := by decide
/-- The manager statements: SABM, DISC, UA, DM and OTHER act in FLAG_EXPECTED. -/
theorem witness_manager : (at3 (ctx .flagExpected 0x0F 0x3F 0xCF) []).rx.rxState = .flagExpected := rfl
theorem witness_SabmIsIdempotent :
    let s := at3 (ctx .flagExpected 0x0F 0x3F 0xCF) []
    s.rx.rxState = .flagExpected ∧ s.env.answers.txHiOk = true ∧ (s.chan (s.rx.addr.extractLsb' 2 6)).connected = true := by
  decide
/-- The op-code hypotheses of the host statements, met by the words of R211-R223. -/
theorem witness_op_codes : (0x1020003F#32).extractLsb' 28 4 = 0x1#4 ∧ (0x20C00000#32).extractLsb' 28 4 = 0x2#4 ∧
    (0x30C00020#32).extractLsb' 28 4 = 0x3#4 ∧ (0x40D00007#32).extractLsb' 28 4 = 0x4#4 ∧
    (0x50D00000#32).extractLsb' 28 4 = 0x5#4 ∧ (0x60C00000#32).extractLsb' 28 4 = 0x6#4 ∧
    (0x70000000#32).extractLsb' 28 4 = 0x7#4 ∧ (0x80000000#32).extractLsb' 28 4 = 0x8#4 ∧
    (0x90100000#32).extractLsb' 28 4 = 0x9#4 ∧ (0x00000000#32).extractLsb' 28 4 = 0x0#4 ∧
    0xA#4 ≤ (0xF0000000#32).extractLsb' 28 4 := by decide
theorem witness_SendCmdOffersToTxHi : (at3 (ctx .cmd 0 0 0) []).env.answers.txAccept = true ∧
    ((at3 (ctx .cmd 0 0 0) []).beginTurn [] no).env.answers.txAccept = false := ⟨rfl, rfl⟩
theorem witness_SendDataOffersItsFirstFrame : ((at3 (ctx .cmd 0 0 0) []).chan 4).mtu = 0 ∧
    ((at3 (ctx .cmd 0 0 0) []).chan 3).mtu ≠ 0 ∧ (at3 (ctx .cmd 0 0 0) []).env.answers.txAccept = true ∧
    ((at3 (ctx .cmd 0 0 0) []).beginTurn [] no).env.answers.txAccept = false := by decide
/-- 33 bytes at MTU 32: two frames. -/
def send33 : State :=
  { host1 0x20C00000 (List.replicate 33 0x41) yes with
    env := { turns := [.host yes, .host yes], hostOps := [{ word := 0x20C00000, payload := List.replicate 33 0x41 }],
             answers := yes, payload := [] } }
theorem witness_SendDataSendsEverySegmentInOrder :
    send33.held = none ∧ send33.env.hostOps = { word := 0x20C00000, payload := List.replicate 33 0x41 } :: [] ∧ decodeHost 0x20C00000 = .sendData 3 false ∧ (send33.chan 3).mtu ≠ 0 ∧ yes.txAccept = true ∧
    send33.env.turns = List.replicate ((segments (List.replicate 33 (0x41 : Byte)) (send33.chan 3).mtu.toNat).map
      (encodeData 3 false (send33.chan 3).mode)).length (.host yes) ++ [] := by decide
/-- A host turn on a port that a send with one frame left holds. -/
def heldOn (a : Answers) : State := { host1 0 [] a with held := some ⟨.lo, [encodeCmd 3 true 0x53], ⟨.ok, .none⟩⟩ }
theorem witness_HeldSendWaitsForAcceptance :
    (heldOn no).env.turns = .host no :: [] ∧ (heldOn yes).env.turns = .host yes :: [] ∧
    (heldOn no).held = some ⟨.lo, [encodeCmd 3 true 0x53], ⟨.ok, .none⟩⟩ ∧ (heldOn yes).held = (heldOn no).held ∧
    no.txAccept = false ∧ yes.txAccept = true := ⟨rfl, rfl, rfl, rfl, rfl, rfl⟩
/-- R213, R65: the held frame stays without acceptance; with it, the frame goes out and the operation returns. -/
theorem test_held_send : gives (heldOn no) (fun t => t.held == (heldOn no).held && t.out == (heldOn no).out) = true ∧
    gives (heldOn yes) (fun t => t.held == none && t.out.txLo == [encodeCmd 3 true 0x53] &&
      t.out.replies == [⟨.ok, .none⟩]) = true := by decide
theorem witness_RxStepsGoOnWhileASendHolds : (rx1 (ping .flagExpected 0xCF) 0xF9 yes).env.turns = .rx 0xF9 yes :: [] := rfl
theorem witness_CfgChanSetsModeAndMtu : (at3 (ctx .cmd 0 0 0) []).cfg.scratchCap < (257#16).toNat ∧
    (256#16).toNat ≤ (at3 (ctx .cmd 0 0 0) []).cfg.scratchCap := by decide
theorem witness_ReservedOpCodesAnswerBadOp : Instr.reservedOp0 ∈ [Instr.reservedOp0, .reservedOpA, .reservedOpB,
    .reservedOpC, .reservedOpD, .reservedOpE, .reservedOpF] := by decide
/-- CFG_CHAN with MTU 257 returns MTU_RANGE. -/
theorem witness_HostErrorsHaveNoEffect : ∃ t r, isHostInstr (.cfgChan 3 .ui 257) = true ∧
    exec (.cfgChan 3 .ui 257) (host1 0 [] yes) = .next t ∧
    t.out.replies = (host1 0 [] yes).out.replies ++ [r] ∧ r.status ≠ .ok :=
  ⟨_, { status := .mtuRange, data := .none }, rfl, rfl, rfl, by decide⟩
theorem witness_HostTurnsKeepToTheirRights : ∃ t, (host1 0x50C00000 [] yes).env.turns = .host yes :: [] ∧
    step (host1 0x50C00000 [] yes) = .next t := ⟨_, rfl, rfl⟩
theorem witness_RxTurnsKeepToTheirRights : ∃ t, (rx1 (ping .flagExpected 0xCF) 0xF8 yes).env.turns = .rx 0xF8 yes :: [] ∧
    step (rx1 (ping .flagExpected 0xCF) 0xF8 yes) = .next t := ⟨_, rfl, rfl⟩
/-- CFG_CHAN, BIND_QUEUE and SET_CONN on DLCI 3, and DISC on it, each change the field they may. -/
theorem witness_RegistryFieldsHaveOnlyTheirWriters :
    gives (host1 0x30D00008 [] yes) (fun t => decide ((t.chan 3).mode ≠ .uih) && decide ((t.chan 3).mtu ≠ 32)) = true ∧
    gives (host1 0x40C00000 [] yes) (fun t => decide ((t.chan 3).queue ≠ some 7)) = true ∧
    gives (host1 0x50C00000 [] yes) (fun t => decide ((t.chan 3).connected ≠ true)) = true ∧
    gives (rx1 (ctx .flagExpected 0x0F 0x53 0xCF) 0xF9 yes) (fun t => decide ((t.chan 3).connected ≠ true)) = true := by
  decide
/-- A step with an event: V-R2. -/
theorem witness_EventsFollowThePrecedence : ∃ t, step (rx1 (ping .flagExpected 0xCF) 0x00 yes) = .next t ∧
    expectedEvent 0x00 ((rx1 (ping .flagExpected 0xCF) 0x00 yes).beginTurn [] yes) = some .framing := ⟨_, rfl, rfl⟩
theorem witness_OutputsOnlyGrow : ∃ t, step (host1 0x10E00053 [] yes) = .next t := ⟨_, rfl⟩
theorem witness_ScratchBytesHaveOneWriter :
    gives (rx1 (data3 3) 0x48 yes) (fun t => decide (t.rx.buf.read 3 ≠ (rx1 (data3 3) 0x48 yes).rx.buf.read 3)) = true := by
  decide
/-- The PING frame on DLCI 3 (§1.1). -/
theorem witness_EncodedDataFramesAreDelivered :
    let p : List Byte := [0x50, 0x49, 0x4E, 0x47]
    let s := at3 Decoder.reset ((encodeData 3 false .uih p).map fun b => Turn.rx b yes)
    Inv s ∧ s.muxEn = true ∧ s.rx.rxState = .waitingAddress ∧ p.length ≤ (s.chan 3).mtu.toNat ∧
    (s.chan 3).queue = some 7 ∧ (s.chan 3).connected = true ∧ p.length ≤ yes.qFree ∧ encAddr 3 false ≠ 0xF9#8 ∧
    s.env.turns = (encodeData 3 false .uih p).map (fun b => Turn.rx b yes) ++ [] :=
  ⟨at3_inv _ _ rfl rfl, by decide, by decide, by decide, by decide, by decide, by decide, by decide, by decide⟩
/-- SABM|PF on DLCI 3. -/
theorem witness_EncodedCommandFramesReachTheManager :
    let s := at3 Decoder.reset ((encodeCmd 3 true 0x3F).map fun b => Turn.rx b yes)
    s.muxEn = true ∧ s.rx.rxState = .waitingAddress ∧ 0x3F#8 &&& 0xEF#8 ≠ 0x03#8 ∧ 0x3F#8 &&& 0xEF#8 ≠ 0xEF#8 ∧
    encAddr 3 true ≠ 0xF9#8 ∧ s.env.turns = (encodeCmd 3 true 0x3F).map (fun b => Turn.rx b yes) ++ [] := by decide
/-- §2.8: from CMD, with 32772 bytes to come. -/
theorem witness_FsmResynchronises :
    let s := at3 (ctx .cmd 0x0D 0 0x57) (List.replicate 32772 (Turn.rx 0xEF yes))
    Inv s ∧ s.muxEn = true ∧ s.rx.rxState ≠ .waitingAddress ∧ 32772 ≤ s.env.turns.length ∧
    ∀ x ∈ s.env.turns, ∃ b a, x = .rx b a := by
  refine ⟨at3_cmd_inv _, rfl, by decide, ?_, fun x hx => ⟨0xEF, yes, ?_⟩⟩
  · exact Nat.le_of_eq List.length_replicate.symm
  · exact List.eq_of_mem_replicate hx

end Sys2Proof.Tests
end

/-! ## When a step runs an instruction, and registry writes (00_scope.md R4, R12) -/

namespace Sys2Proof.Machine

section StepEquations

variable (s : State)

/-- R160, R163: with multiplexing on, the byte that arrives in CMD is decoded and run. -/
theorem rxStep_cmd (b : Byte) (hm : s.muxEn = true) (hr : s.rx.rxState = .cmd) :
    rxStep b s = exec (decodeCtrl b) s := by
  simp [rxStep, hm, hr]

/-- R160: with multiplexing on, the byte that arrives in FLAG_EXPECTED goes to `rxFlag`. -/
theorem rxStep_flagExpected (b : Byte) (hm : s.muxEn = true) (hr : s.rx.rxState = .flagExpected) :
    rxStep b s = rxFlag b s := by
  simp [rxStep, hm, hr]

/-- R170, R171: the flag that closes a valid frame runs the control byte the frame was opened with. -/
theorem rxFlag_valid (hv : s.rx.valid = true) : rxFlag FLAG s = exec (decodeCtrl s.rx.ctrl) s := by
  simp [rxFlag, hv]

/-- R210: on the free port a host step issues the next operation. -/
theorem hostStep_issue (op : HostCmd) (ops : List HostCmd) (hh : s.held = none) (ho : s.env.hostOps = op :: ops) :
    hostStep s = issueHostOp op ops s := by
  simp [hostStep, hh, ho]

end StepEquations

/-- Settles O20: each moment is the turn's step lemma followed by the case of `rxStep` or `hostStep` it falls in; the
fields those cases test are the ones `beginTurn` leaves alone. -/
theorem stepRunsTheDecodedInstruction : Obligations.StepRunsTheDecodedInstruction := by
  refine ⟨?controlByte, ?closingFlag, ?hostOperation⟩
  case controlByte =>
    intro s c a rest ht hm hr
    rw [step_rx s c a rest ht]
    exact rxStep_cmd (s.beginTurn rest a) c hm hr
  case closingFlag =>
    intro s a rest ht hm hr hv
    calc step s
      _ = rxStep FLAG (s.beginTurn rest a) := step_rx s FLAG a rest ht
      _ = rxFlag FLAG (s.beginTurn rest a) := rxStep_flagExpected (s.beginTurn rest a) FLAG hm hr
      _ = exec (decodeCtrl s.rx.ctrl) (s.beginTurn rest a) := rxFlag_valid (s.beginTurn rest a) hv
  case hostOperation =>
    intro s a rest op ops ht hh ho
    rw [step_host s a rest ht]
    exact hostStep_issue (s.beginTurn rest a) op ops hh ho

/-- Settles O46, by the registry law `State.chan_setChan`. -/
theorem registryEntriesAreIndependent : Obligations.RegistryEntriesAreIndependent := by
  intro s d e c
  calc (s.setChan d c).chan e
    _ = if d = e then c else s.chan e := State.chan_setChan s d e c
    _ = if e = d then c else s.chan e := if_congr eq_comm rfl rfl

end Sys2Proof.Machine

/-! ## What a control byte does at each of its two moments (42_rx_fsm.md R163, R170, R171) -/

namespace Sys2Proof.Machine

section FrameMoments

variable (s : State)

/-- R163: in CMD the decoded control byte is captured, whatever its type. -/
theorem exec_decodeCtrl_cmd (c : Byte) (h : s.rx.rxState = .cmd) : exec (decodeCtrl c) s = .next (s.captureControl c) := by
  have capture {c' : Byte} (close : State → Result) (hc : c' = c) :
      frameInstr c' close s = .next (s.captureControl c) := hc ▸ frameInstr_cmd s c' close h
  rcases decodeCtrl_cases c with ⟨hd, hc, _⟩ | ⟨hd, hc, _⟩ | ⟨hd, hc, _⟩ | ⟨hd, hc, _⟩ | ⟨hd, hc, _⟩ | ⟨hd, hc, _⟩ |
    ⟨hd, _⟩ <;> rw [hd]
  · exact capture State.deliver hc
  · exact capture State.deliver hc
  · exact capture (connMgr sabmAction) hc
  · exact capture (connMgr uaAction) hc
  · exact capture (connMgr dmAction) hc
  · exact capture (connMgr discAction) hc
  · exact capture (connMgr otherAction) rfl

/-! ### The arms of `exec` at the closing flag -/

variable (pf : Bool) (c : Byte)

theorem exec_ui_close (h : s.rx.rxState ≠ .cmd) : exec (.ui pf) s = s.deliver := frameInstr_close s _ _ h
theorem exec_uih_close (h : s.rx.rxState ≠ .cmd) : exec (.uih pf) s = s.deliver := frameInstr_close s _ _ h
theorem exec_sabm_close (h : s.rx.rxState ≠ .cmd) : exec (.sabm pf) s = connMgr sabmAction s := frameInstr_close s _ _ h
theorem exec_ua_close (h : s.rx.rxState ≠ .cmd) : exec (.ua pf) s = connMgr uaAction s := frameInstr_close s _ _ h
theorem exec_dm_close (h : s.rx.rxState ≠ .cmd) : exec (.dm pf) s = connMgr dmAction s := frameInstr_close s _ _ h
theorem exec_disc_close (h : s.rx.rxState ≠ .cmd) : exec (.disc pf) s = connMgr discAction s := frameInstr_close s _ _ h
theorem exec_other_close (h : s.rx.rxState ≠ .cmd) : exec (.other c) s = connMgr otherAction s := frameInstr_close s _ _ h

/-- The manager's action for a command frame's control byte: R195's dispatch on the frame type. -/
def managerAction : BitVec 7 → State → State :=
  match decodeCtrl c with
  | .sabm _ => sabmAction
  | .disc _ => discAction
  | .ua _ => uaAction
  | .dm _ => dmAction
  | _ => otherAction

/-- A command frame's action is one of R190-R194; the two that touch the registry name their frame type. -/
theorem managerAction_cases :
    (ftype c = typeSABM ∧ managerAction c = sabmAction) ∨ (ftype c = typeDISC ∧ managerAction c = discAction) ∨
    managerAction c = uaAction ∨ managerAction c = dmAction ∨ managerAction c = otherAction := by
  rcases decodeCtrl_cases c with ⟨hd, _⟩ | ⟨hd, _⟩ | ⟨hd, _, ht, _⟩ | ⟨hd, _⟩ | ⟨hd, _⟩ | ⟨hd, _, ht, _⟩ | ⟨hd, _⟩
  case inr.inr.inl => simp [managerAction, hd, ht]
  case inr.inr.inr.inr.inr.inl => simp [managerAction, hd, ht]
  all_goals simp [managerAction, hd]

/-- R170, R171: the closing flag of a valid frame delivers a data frame, and runs the manager on a command frame. -/
theorem exec_decodeCtrl_close (h : s.rx.rxState ≠ .cmd) :
    exec (decodeCtrl c) s = if isDataCtrl c = true then s.deliver else connMgr (managerAction c) s := by
  rcases decodeCtrl_cases c with ⟨hd, _, hc⟩ | ⟨hd, _, hc⟩ | ⟨hd, _, _, hc⟩ | ⟨hd, _, _, hc⟩ | ⟨hd, _, _, hc⟩ |
    ⟨hd, _, _, hc⟩ | ⟨hd, _, hc, _⟩
  · simp [hd, hc, exec_ui_close s _ h]
  · simp [hd, hc, exec_uih_close s _ h]
  · simp [hd, hc, exec_sabm_close s _ h, managerAction]
  · simp [hd, hc, exec_ua_close s _ h, managerAction]
  · simp [hd, hc, exec_dm_close s _ h, managerAction]
  · simp [hd, hc, exec_disc_close s _ h, managerAction]
  · simp [hd, hc, exec_other_close s _ h, managerAction]

end FrameMoments

/-- R190 but for DLCI 0's signal: a connected channel is disconnected and answered UA, any other answered DM. -/
def discAnswer (dc : BitVec 7) (s : State) : State :=
  if (s.chan (dcDlci dc)).connected then (s.setConnected (dcDlci dc) false).replyFrame (dcDlci dc) (dcCr dc) ctrlUaPf
  else s.replyFrame (dcDlci dc) (dcCr dc) ctrlDmPf

theorem discAction_eq (dc : BitVec 7) (s : State) :
    discAction dc s = if dcDlci dc = 0#6 then (discAnswer dc s).raiseDisc0 else discAnswer dc s := rfl

/-! ## The RX agent's rights (10_state.md R43; 60_exceptions.md R250) -/

/-- What an RX turn leaves to the host agent: everything but the decoder context, the counters, the `connected` flags, and
the outputs TX_HI, receive queues, raw handler and trace. `disc0_pending` it may set. -/
structure RxRights (s t : State) : Prop where
  muxEn : t.muxEn = s.muxEn
  held : t.held = s.held
  cfg : t.cfg = s.cfg
  env : t.env = s.env
  disc0 : s.disc0Pending = true → t.disc0Pending = true
  txLo : t.out.txLo = s.out.txLo
  replies : t.out.replies = s.out.replies

/-- `s` and `t` differ in the decoder context alone. -/
def OnlyDecoder (s t : State) : Prop := t = { s with rx := t.rx }

section RxFrame

variable {s t u : State}

theorem RxRights.trans (h : RxRights s t) (h' : RxRights t u) : RxRights s u :=
  ⟨h'.muxEn.trans h.muxEn, h'.held.trans h.held, h'.cfg.trans h.cfg, h'.env.trans h.env, h'.disc0 ∘ h.disc0,
    h'.txLo.trans h.txLo, h'.replies.trans h.replies⟩

theorem OnlyDecoder.rxRights (h : OnlyDecoder s t) : RxRights s t := by
  rw [h]
  exact ⟨rfl, rfl, rfl, rfl, id, rfl, rfl⟩

theorem OnlyDecoder.reg (h : OnlyDecoder s t) : t.reg = s.reg := by
  rw [h]

variable (s)

theorem rxAddress_onlyDecoder (b : Byte) : OnlyDecoder s (rxAddress b s) := by
  unfold rxAddress OnlyDecoder
  split <;> rfl

theorem captureControl_onlyDecoder (c : Byte) : OnlyDecoder s (s.captureControl c) := rfl

theorem rxLen_onlyDecoder (b : Byte) : OnlyDecoder s (rxLen b s) := by
  unfold rxLen OnlyDecoder
  split <;> rfl

theorem rxLenExt_onlyDecoder (b : Byte) : OnlyDecoder s (rxLenExt b s) := rfl

theorem rxFcs_onlyDecoder (b : Byte) : OnlyDecoder s (rxFcs b s) := rfl

theorem rxData_onlyDecoder (b : Byte) (h : rxData b s = .next t) : OnlyDecoder s t := by
  rcases rxData_cases s b t h with ⟨_, rfl⟩ | ⟨_, _, rfl⟩ <;> rfl

/-! ### The operations an RX turn is made of -/

theorem emitRaw_rxRights (b : Byte) : RxRights s (s.emitRaw b) := ⟨rfl, rfl, rfl, rfl, id, rfl, rfl⟩

theorem setRxState_rxRights (r : RxState) : RxRights s (s.setRxState r) := ⟨rfl, rfl, rfl, rfl, id, rfl, rfl⟩

theorem logEvent_rxRights (e : Event) : RxRights s (s.logEvent e) := ⟨rfl, rfl, rfl, rfl, id, rfl, rfl⟩

theorem setConnected_rxRights (d : Dlci) (v : Bool) : RxRights s (s.setConnected d v) := ⟨rfl, rfl, rfl, rfl, id, rfl, rfl⟩

theorem raiseDisc0_rxRights : RxRights s s.raiseDisc0 := ⟨rfl, rfl, rfl, rfl, fun _ => rfl, rfl, rfl⟩

theorem replyFrame_rxRights (d : Dlci) (cr : Bool) (c2 : Byte) : RxRights s (s.replyFrame d cr c2) := by
  rcases s.replyFrame_cases d cr c2 with ⟨_, h⟩ | ⟨_, h⟩ <;> rw [h] <;> exact ⟨rfl, rfl, rfl, rfl, id, rfl, rfl⟩

theorem deliver_rxRights (h : s.deliver = .next t) : RxRights s t := by
  rcases s.deliver_cases t h with ⟨_, rfl⟩ | ⟨_, _, _, rfl⟩ | ⟨_, _, _, _, rfl⟩ <;>
    exact ⟨rfl, rfl, rfl, rfl, id, rfl, rfl⟩

theorem discAnswer_rxRights (dc : BitVec 7) : RxRights s (discAnswer dc s) := by
  unfold discAnswer
  split
  · exact (setConnected_rxRights s _ _).trans (replyFrame_rxRights _ _ _ _)
  · exact replyFrame_rxRights s _ _ _

theorem discAction_rxRights (dc : BitVec 7) : RxRights s (discAction dc s) := by
  rw [discAction_eq]
  split
  · exact (discAnswer_rxRights s dc).trans (raiseDisc0_rxRights _)
  · exact discAnswer_rxRights s dc

theorem managerAction_rxRights (c : Byte) (dc : BitVec 7) : RxRights s (managerAction c dc s) := by
  rcases managerAction_cases c with ⟨_, h⟩ | ⟨_, h⟩ | h | h | h <;> rw [h]
  · exact (setConnected_rxRights s _ _).trans (replyFrame_rxRights _ _ _ _)
  · exact discAction_rxRights s dc
  · exact ⟨rfl, rfl, rfl, rfl, id, rfl, rfl⟩
  · exact ⟨rfl, rfl, rfl, rfl, id, rfl, rfl⟩
  · exact logEvent_rxRights s _

/-! ### What closing a frame does to the decoder context and to the registry -/

theorem deliver_rx (h : s.deliver = .next t) : t.rx = { s.rx with rxState := .waitingAddress } := by
  rcases s.deliver_cases t h with ⟨_, rfl⟩ | ⟨_, _, _, rfl⟩ | ⟨_, _, _, _, rfl⟩ <;> rfl

theorem deliver_reg (h : s.deliver = .next t) : t.reg = s.reg := by
  rcases s.deliver_cases t h with ⟨_, rfl⟩ | ⟨_, _, _, rfl⟩ | ⟨_, _, _, _, rfl⟩ <;> rfl

theorem discAction_rx (dc : BitVec 7) : (discAction dc s).rx = s.rx := by
  have answer : (discAnswer dc s).rx = s.rx := by unfold discAnswer; split <;> simp
  rw [discAction_eq]
  split <;> exact answer

@[simp] theorem managerAction_rx (c : Byte) (dc : BitVec 7) : (managerAction c dc s).rx = s.rx := by
  rcases managerAction_cases c with ⟨_, h⟩ | ⟨_, h⟩ | h | h | h <;> rw [h]
  · exact State.replyFrame_rx ..
  · exact discAction_rx s dc
  all_goals rfl

/-- R190: DISC clears the `connected` flag of its channel, which is already clear where it leaves the registry alone. -/
theorem discAction_reg (dc : BitVec 7) : (discAction dc s).reg = (s.setConnected (dcDlci dc) false).reg := by
  have answer : (discAnswer dc s).reg = (s.setConnected (dcDlci dc) false).reg := by
    unfold discAnswer
    split
    case isTrue => exact State.replyFrame_reg ..
    case isFalse hc =>
      have clear : ({ s.chan (dcDlci dc) with connected := false } : Channel) = s.chan (dcDlci dc) := by
        rw [← Bool.eq_false_of_not_eq_true hc]
      rw [State.replyFrame_reg, State.setConnected, clear, State.setChan_chan]
  rw [discAction_eq]
  split <;> exact answer

/-- R190, R191: of the manager's actions only SABM's and DISC's write the registry. -/
theorem managerAction_reg (c : Byte) (dc : BitVec 7) :
    (managerAction c dc s).reg = s.reg ∨
    ftype c = typeSABM ∧ (managerAction c dc s).reg = (s.setConnected (dcDlci dc) true).reg ∨
    ftype c = typeDISC ∧ (managerAction c dc s).reg = (s.setConnected (dcDlci dc) false).reg := by
  rcases managerAction_cases c with ⟨ht, h⟩ | ⟨ht, h⟩ | h | h | h <;> rw [h]
  · exact .inr (.inl ⟨ht, State.replyFrame_reg ..⟩)
  · exact .inr (.inr ⟨ht, discAction_reg s dc⟩)
  all_goals exact .inl rfl

end RxFrame

/-- What an RX turn can do, by what it may touch: hand a byte to the raw handler, go on in the decoder context alone,
discard a frame with an event, deliver a data frame, or run the manager on a command frame. -/
inductive RxEffect (b : Byte) (s : State) : State → Prop where
  | raw : RxEffect b s (s.emitRaw b)
  | decoder {t : State} (h : OnlyDecoder s t) : RxEffect b s t
  | discard (e : Event) : RxEffect b s ((s.setRxState .waitingAddress).logEvent e)
  | deliver {t : State} (h : s.deliver = .next t) : RxEffect b s t
  | manage (hb : b = FLAG) (hm : s.muxEn = true) (hr : s.rx.rxState = .flagExpected) (hv : s.rx.valid = true) :
      RxEffect b s ((managerAction s.rx.ctrl (addrDc s.rx.addr) s).setRxState .waitingAddress)

/-- Every RX turn that answers a next state has one of these effects (R160-R172). -/
theorem rxStep_effect {b : Byte} {s t : State} (h : rxStep b s = .next t) : RxEffect b s t := by
  rcases rxStep_cases s b t h with ⟨_, rfl⟩ | ⟨hm, ⟨_, rfl⟩ | ⟨hr, h⟩ | ⟨_, rfl⟩ | ⟨_, rfl⟩ | ⟨_, h⟩ | ⟨_, rfl⟩ | ⟨hr, h⟩⟩
  · exact .raw
  · exact .decoder (rxAddress_onlyDecoder s b)
  · rw [exec_decodeCtrl_cmd s b hr] at h
    cases h
    exact .decoder (captureControl_onlyDecoder s b)
  · exact .decoder (rxLen_onlyDecoder s b)
  · exact .decoder (rxLenExt_onlyDecoder s b)
  · exact .decoder (rxData_onlyDecoder s b h)
  · exact .decoder (rxFcs_onlyDecoder s b)
  · rcases rxFlag_cases s b t h with ⟨_, rfl⟩ | ⟨hb, hv, h⟩ | ⟨_, _, rfl⟩
    · exact .discard .framing
    · rw [exec_decodeCtrl_close s s.rx.ctrl (by simp [hr])] at h
      split at h
      · exact .deliver h
      · cases h
        exact .manage hb hm hr hv
    · exact .discard .fcs

theorem RxEffect.rxRights {b : Byte} {s t : State} (h : RxEffect b s t) : RxRights s t := by
  cases h with
  | raw => exact emitRaw_rxRights s b
  | decoder h => exact h.rxRights
  | discard e => exact (setRxState_rxRights s _).trans (logEvent_rxRights _ e)
  | deliver h => exact deliver_rxRights s h
  | manage => exact (managerAction_rxRights s _ _).trans (setRxState_rxRights _ _)

/-- The registry after an RX turn: as before, or with the `connected` flag of the frame's channel written by the closing
flag of a valid SABM or DISC frame (R30, R190, R191). -/
theorem RxEffect.reg {b : Byte} {s t : State} (h : RxEffect b s t) :
    t.reg = s.reg ∨
    b = FLAG ∧ s.muxEn = true ∧ s.rx.rxState = .flagExpected ∧ s.rx.valid = true ∧
      ∃ v, ftype s.rx.ctrl = (if v = true then typeSABM else typeDISC) ∧
        t.reg = (s.setConnected (addrDlci s.rx.addr) v).reg := by
  cases h with
  | raw => exact .inl rfl
  | decoder h => exact .inl h.reg
  | discard e => exact .inl rfl
  | deliver h => exact .inl (deliver_reg s h)
  | manage hb hm hr hv =>
    rcases managerAction_reg s s.rx.ctrl (addrDc s.rx.addr) with h | ⟨ht, h⟩ | ⟨ht, h⟩
    · exact .inl h
    · exact .inr ⟨hb, hm, hr, hv, true, ht, dcDlci_addrDc s.rx.addr ▸ h⟩
    · exact .inr ⟨hb, hm, hr, hv, false, ht, dcDlci_addrDc s.rx.addr ▸ h⟩

/-- R30-R33: an RX turn writes no registry field but the `connected` flag of the frame's channel. -/
theorem RxEffect.chan {b : Byte} {s t : State} (h : RxEffect b s t) (d : Dlci) :
    (t.chan d).mode = (s.chan d).mode ∧ (t.chan d).mtu = (s.chan d).mtu ∧ (t.chan d).queue = (s.chan d).queue ∧
    ((t.chan d).connected ≠ (s.chan d).connected → d = addrDlci s.rx.addr) := by
  rcases h.reg with h | ⟨_, _, _, _, v, _, h⟩
  · simp [State.chan_congr d h]
  · rw [State.chan_congr d h, State.chan_setConnected]
    split
    case isTrue hd => simp [hd]
    case isFalse => simp

/-- Settles O53: an RX turn has one of the effects `RxEffect`, each of which keeps to the RX agent's rights. -/
theorem rxTurnsKeepToTheirRights : Obligations.RxTurnsKeepToTheirRights := by
  intro s t b a rest ht h
  rw [step_rx s b a rest ht] at h
  have effect : RxEffect b (s.beginTurn rest a) t := rxStep_effect h
  obtain ⟨muxEn, held, cfg, env, disc0, txLo, replies⟩ := effect.rxRights
  exact ⟨effect.chan, muxEn, held, cfg, disc0, txLo, replies, env⟩

end Sys2Proof.Machine

/-! ## The host agent's rights (10_state.md R41, R43; 60_exceptions.md R250) -/

namespace Sys2Proof.Machine

/-- What a host operation can do: begin a send, answer with nothing else changed, or one of the five writes. -/
inductive HostEffect (s : State) : Instr → State → Prop where
  | send {i : Instr} (q : TxQueue) (fs : List Frame) (r : HostReply) (hfs : fs ≠ []) : HostEffect s i (s.startSend q fs r)
  | answer {i : Instr} (r : HostReply) : HostEffect s i (s.reply r)
  | cfgChan (d : Dlci) (m : Mode) (mtu : Mtu) (hmtu : mtu.toNat ≤ s.cfg.scratchCap) :
      HostEffect s (.cfgChan d m mtu) ((s.setFormat d m mtu).hostOk .none)
  | bindQueue (d : Dlci) (bind : Bool) (h : Handle) :
      HostEffect s (.bindQueue d bind h) ((s.setQueue d (if bind then some h else none)).hostOk .none)
  | setConn (d : Dlci) (v : Bool) : HostEffect s (.setConn d v) ((s.setConnected d v).hostOk .none)
  | ackDisc0 : HostEffect s .ackDisc0 (({ s with disc0Pending := false }).hostOk .none)
  | setMuxEn (en : Bool) : HostEffect s (.setMuxEn en)
      (({ (if en && !s.muxEn then s.setRxState .waitingAddress else s) with muxEn := en }).hostOk .none)

/-- Every host operation answers a next state, by one of these effects (R211-R223, R240). -/
theorem exec_host_effect (i : Instr) (s : State) (hi : Safety.isHostInstr i = true) :
    ∃ t, exec i s = .next t ∧ HostEffect s i t := by
  cases i with
  | ui | uih | sabm | ua | dm | disc | other => cases hi
  | sendCmd d cr c => exact ⟨_, rfl, .send _ _ _ (by simp)⟩
  | sendData d cr =>
    by_cases hm : (s.chan d).mtu = 0
    · exact ⟨_, if_pos hm, .answer _⟩
    · refine ⟨_, if_neg hm, .send _ _ _ ?_⟩
      have hpos : 1 ≤ (s.chan d).mtu.toNat := Nat.pos_of_ne_zero fun h0 => hm (BitVec.eq_of_toNat_eq h0)
      simpa using segments_ne_nil s.env.payload _ hpos
  | cfgChan d m mtu =>
    by_cases hm : s.cfg.scratchCap < mtu.toNat
    · exact ⟨_, if_pos hm, .answer _⟩
    · exact ⟨_, if_neg hm, .cfgChan d m mtu (Nat.not_lt.mp hm)⟩
  | bindQueue d bind h => exact ⟨_, rfl, .bindQueue d bind h⟩
  | setConn d v => exact ⟨_, rfl, .setConn d v⟩
  | ackDisc0 => exact ⟨_, rfl, .ackDisc0⟩
  | setMuxEn en => exact ⟨_, rfl, .setMuxEn en⟩
  | readChan | readStatus | reservedOp0 | reservedOpA | reservedOpB | reservedOpC | reservedOpD | reservedOpE
  | reservedOpF => exact ⟨_, rfl, .answer _⟩

/-- A host turn's step: the held operation's next offer, nothing, or an operation issued on the free port with one of the
effects above (R210, R213, R255). -/
theorem hostStep_effect {s t : State} (h : hostStep s = .next t) :
    ((∃ op, s.held = some op) ∧ t = s.offerNext) ∨ t = s ∨
    (∃ op rest, s.held = none ∧ s.env.hostOps = op :: rest ∧
      HostEffect { s with env := { s.env with hostOps := rest, payload := op.payload } } (decodeHost op.word) t) := by
  rcases hostStep_cases s t h with ⟨hop, rfl⟩ | ⟨_, _, rfl⟩ | ⟨op, rest, hh, ho, h⟩
  · exact .inl ⟨hop, rfl⟩
  · exact .inr (.inl rfl)
  · obtain ⟨u, hu, effect⟩ := exec_host_effect (decodeHost op.word)
      { s with env := { s.env with hostOps := rest, payload := op.payload } } (isHostInstr_decodeHost op.word)
    cases hu.symm.trans h
    exact .inr (.inr ⟨op, rest, hh, ho, effect⟩)

/-- What a host turn leaves to the RX agent: the decoder context but for a restart of `rx_state`, the counters, the receive
queues, the raw handler and the trace. `disc0_pending` it may clear. -/
structure HostRights (s t : State) : Prop where
  rx : t.rx = { s.rx with rxState := t.rx.rxState }
  rxState : t.rx.rxState = s.rx.rxState ∨ t.rx.rxState = .waitingAddress ∧ s.muxEn = false ∧ t.muxEn = true
  uaCount : t.uaCount = s.uaCount
  dmCount : t.dmCount = s.dmCount
  rxDropCount : t.rxDropCount = s.rxDropCount
  disc0 : t.disc0Pending = s.disc0Pending ∨ t.disc0Pending = false
  cfg : t.cfg = s.cfg
  pushed : t.out.pushed = s.out.pushed
  rawOut : t.out.rawOut = s.out.rawOut
  events : t.out.events = s.out.events
  turns : t.env.turns = s.env.turns

/-- What an offer leaves of the outputs: all but the transmit queues and the replies (R65, R210). -/
theorem State.offerNext_out (s : State) : s.offerNext.out.pushed = s.out.pushed ∧
    s.offerNext.out.rawOut = s.out.rawOut ∧ s.offerNext.out.events = s.out.events := by
  rcases s.offerNext_cases with ⟨_, h⟩ | ⟨_, _, _, h⟩ | ⟨_, _, _, _, _, _, h⟩ | ⟨_, _, _, _, _, h⟩ |
    ⟨_, _, _, _, _, _, _, h⟩ <;> simp [h]

theorem offerNext_hostRights (s : State) : HostRights s s.offerNext := by
  obtain ⟨pushed, rawOut, events⟩ := s.offerNext_out
  constructor <;> simp [pushed, rawOut, events]

theorem startSend_hostRights (s : State) (q : TxQueue) (fs : List Frame) (r : HostReply) :
    HostRights s (s.startSend q fs r) := by
  obtain ⟨pushed, rawOut, events⟩ := ({ s with held := some { queue := q, frames := fs, reply := r } } : State).offerNext_out
  constructor <;> simp [State.startSend, pushed, rawOut, events]

theorem HostRights.refl (s : State) : HostRights s s :=
  ⟨rfl, .inl rfl, rfl, rfl, rfl, .inl rfl, rfl, rfl, rfl, rfl, rfl⟩

theorem HostEffect.hostRights {s t : State} {i : Instr} (h : HostEffect s i t) : HostRights s t := by
  cases h with
  | send q fs r => exact startSend_hostRights s q fs r
  | answer r => exact ⟨rfl, .inl rfl, rfl, rfl, rfl, .inl rfl, rfl, rfl, rfl, rfl, rfl⟩
  | cfgChan | bindQueue | setConn => exact ⟨rfl, .inl rfl, rfl, rfl, rfl, .inl rfl, rfl, rfl, rfl, rfl, rfl⟩
  | ackDisc0 => exact ⟨rfl, .inl rfl, rfl, rfl, rfl, .inr rfl, rfl, rfl, rfl, rfl, rfl⟩
  | setMuxEn en =>
    by_cases hr : (en && !s.muxEn) = true
    · have switched : s.muxEn = false ∧ en = true := by simpa [and_comm] using hr
      rw [if_pos hr]
      exact ⟨rfl, .inr ⟨rfl, switched⟩, rfl, rfl, rfl, .inl rfl, rfl, rfl, rfl, rfl, rfl⟩
    · rw [if_neg hr]
      exact ⟨rfl, .inl rfl, rfl, rfl, rfl, .inl rfl, rfl, rfl, rfl, rfl, rfl⟩

theorem hostStep_hostRights {s t : State} (h : hostStep s = .next t) : HostRights s t := by
  rcases hostStep_effect h with ⟨_, rfl⟩ | rfl | ⟨op, rest, _, _, effect⟩
  · exact offerNext_hostRights s
  · exact .refl t
  · exact { effect.hostRights with }

/-- Settles O52, by `hostStep_hostRights`: each effect of a host turn keeps to the host agent's rights. -/
theorem hostTurnsKeepToTheirRights : Obligations.HostTurnsKeepToTheirRights := by
  intro s t a rest ht h
  rw [step_host s a rest ht] at h
  obtain ⟨rx, rxState, ua, dm, drop, disc0, cfg, pushed, rawOut, events, turns⟩ := hostStep_hostRights h
  exact ⟨rx, rxState, ua, dm, drop, disc0, cfg, pushed, rawOut, events, turns⟩

/-- What of channel `d`'s entry changes from `c` to `c'` is what the host operation `i` is there to write (R31-R33). -/
structure WrittenBy (d : Dlci) (i : Instr) (c c' : Channel) : Prop where
  format : c'.mode ≠ c.mode ∨ c'.mtu ≠ c.mtu → i = .cfgChan d c'.mode c'.mtu
  queue : c'.queue ≠ c.queue → ∃ bind h, i = .bindQueue d bind h
  connected : c'.connected ≠ c.connected → i = .setConn d c'.connected

theorem WrittenBy.of_reg_eq {s t : State} {i : Instr} (d : Dlci) (h : t.reg = s.reg) :
    WrittenBy d i (s.chan d) (t.chan d) := by
  rw [State.chan_congr d h]
  exact ⟨by simp, by simp, by simp⟩

/-- The registry fields a host operation changes are those its op code names, of its own channel (R214-R218). -/
theorem HostEffect.writtenBy {s t : State} {i : Instr} (h : HostEffect s i t) (d : Dlci) :
    WrittenBy d i (s.chan d) (t.chan d) := by
  cases h with
  | send q fs r => exact .of_reg_eq d (State.startSend_reg s q fs r)
  | answer r => exact .of_reg_eq d rfl
  | cfgChan e m mtu =>
    have entry : ((s.setFormat e m mtu).hostOk .none).chan d = _ := State.chan_setFormat s e d m mtu
    rw [entry]
    by_cases hd : e = d <;> constructor <;> simp [hd]
  | bindQueue e bind h =>
    have entry : ((s.setQueue e (if bind then some h else none)).hostOk .none).chan d = _ := State.chan_setQueue s e d _
    rw [entry]
    by_cases hd : e = d <;> constructor <;> simp [hd]
  | setConn e v =>
    have entry : ((s.setConnected e v).hostOk .none).chan d = _ := State.chan_setConnected s e d v
    rw [entry]
    by_cases hd : e = d <;> constructor <;> simp [hd]
  | ackDisc0 => exact .of_reg_eq d rfl
  | setMuxEn en =>
    refine .of_reg_eq d ?_
    rw [State.hostOk_reg]
    split <;> rfl

/-- Settles O54: an RX turn writes `connected` alone, by `RxEffect.reg`; a host turn writes what the operation it issues
names, by `HostEffect.writtenBy`; an idle step and an offer write nothing. -/
theorem registryFieldsHaveOnlyTheirWriters : Obligations.RegistryFieldsHaveOnlyTheirWriters := by
  intro s t d h hreset issues
  rcases step_cases s t h with ⟨_, rfl⟩ | ⟨b, a, rest, ht, h⟩ | ⟨a, rest, ht, h⟩ | ⟨rest, ht, _⟩
  case inl => simp
  case inr.inl =>
    have effect : RxEffect b (s.beginTurn rest a) t := rxStep_effect h
    obtain ⟨mode, mtu, queue, _⟩ := effect.chan d
    refine ⟨fun hne => (not_and_or.mpr hne ⟨mode, mtu⟩).elim, fun hne => absurd queue hne, fun hne => .inr ?_⟩
    rcases effect.reg with hreg | ⟨rfl, hm, hr, hv, v, hc, hreg⟩
    · exact absurd (congrArg Channel.connected (State.chan_congr d hreg)) hne
    · have entry := (State.chan_congr d hreg).trans (State.chan_setConnected ..)
      by_cases hd : addrDlci s.rx.addr = d
      · rw [State.beginTurn_rx, if_pos hd] at entry
        refine ⟨a, rest, ht, hm, hr, hv, hd, ?_⟩
        rw [entry]
        exact hc
      · rw [State.beginTurn_rx, if_neg hd] at entry
        exact absurd (congrArg Channel.connected entry) hne
  case inr.inr.inl =>
    rcases hostStep_effect h with ⟨_, rfl⟩ | rfl | ⟨op, ops, hh, ho, effect⟩
    · have same : (s.beginTurn rest a).offerNext.chan d = s.chan d := State.chan_congr d (State.offerNext_reg _)
      simp [same]
    · have same : (s.beginTurn rest a).chan d = s.chan d := rfl
      simp [same]
    · have issued {i : Instr} (hi : decodeHost op.word = i) : issues i := ⟨a, rest, op, ops, ht, hh, ho, hi⟩
      obtain ⟨format, queue, connected⟩ := effect.writtenBy d
      refine ⟨fun hne => issued (format hne), fun hne => ?_, fun hne => .inl (issued (connected hne))⟩
      obtain ⟨bind, handle, hi⟩ := queue hne
      exact ⟨bind, handle, issued hi⟩
  case inr.inr.inr => exact absurd ht (hreset rest)

end Sys2Proof.Machine

/-! ## The scratch buffer's one writer (10_state.md R28) -/

namespace Sys2Proof.Machine

/-- The closing of a frame leaves the decoder context alone but for the return to WAITING_ADDRESS (R170, R171). -/
theorem exec_close_rx {c : Byte} {s t : State} (hr : s.rx.rxState ≠ .cmd) (h : exec (decodeCtrl c) s = .next t) :
    t.rx = { s.rx with rxState := .waitingAddress } := by
  rw [exec_decodeCtrl_close s c hr] at h
  split at h
  · exact deliver_rx s h
  · cases h
    rw [State.setRxState_rx, managerAction_rx]

/-- Whatever byte arrives in FLAG_EXPECTED, it leaves the decoder context alone but for the return to WAITING_ADDRESS
(R170-R172). -/
theorem rxFlag_rx {b : Byte} {s t : State} (hr : s.rx.rxState = .flagExpected) (h : rxFlag b s = .next t) :
    t.rx = { s.rx with rxState := .waitingAddress } := by
  rcases rxFlag_cases s b t h with ⟨_, rfl⟩ | ⟨_, _, h⟩ | ⟨_, _, rfl⟩
  · rfl
  · exact exec_close_rx (by simp [hr]) h
  · rfl

/-- R28: an RX step writes the scratch buffer only in DATA, for a kept frame, at `cnt`. -/
theorem rxStep_buf {b : Byte} {s t : State} (h : rxStep b s = .next t) :
    t.rx.buf = s.rx.buf ∨
    s.muxEn = true ∧ s.rx.rxState = .data ∧ s.rx.q ≠ none ∧ t.rx.buf = s.rx.buf.write s.rx.cnt.toNat b := by
  rcases rxStep_cases s b t h with ⟨_, rfl⟩ | ⟨hm, ⟨_, rfl⟩ | ⟨hr, h⟩ | ⟨_, rfl⟩ | ⟨_, rfl⟩ | ⟨hr, h⟩ | ⟨_, rfl⟩ | ⟨hr, h⟩⟩
  · exact .inl rfl
  · left; unfold rxAddress; split <;> rfl
  · rw [exec_decodeCtrl_cmd s b hr] at h
    cases h
    exact .inl rfl
  · left; unfold rxLen; split <;> rfl
  · exact .inl rfl
  · rcases rxData_cases s b t h with ⟨_, rfl⟩ | ⟨hq, _, rfl⟩
    · exact .inl rfl
    · exact .inr ⟨hm, hr, hq, rfl⟩
  · exact .inl rfl
  · rw [rxFlag_rx hr h]
    exact .inl rfl

/-- Settles O57: a host turn keeps the buffer (`hostStep_hostRights`), and an RX turn writes it at one index, so that a byte
which reads differently is the one at `cnt`. -/
theorem scratchBytesHaveOneWriter : Obligations.ScratchBytesHaveOneWriter := by
  intro s t i h hreset hread
  rcases step_cases s t h with ⟨_, rfl⟩ | ⟨b, a, rest, ht, h⟩ | ⟨a, rest, ht, h⟩ | ⟨rest, ht, _⟩
  case inl => exact absurd rfl hread
  case inr.inl =>
    rcases rxStep_buf h with hbuf | ⟨hm, hr, hq, hbuf⟩
    · exact absurd (congrArg (Memory.read · i) hbuf) hread
    · refine ⟨⟨b, a, rest, ht⟩, hm, hr, hq, Decidable.byContradiction fun hi => hread ?_⟩
      rw [hbuf]
      exact Memory.read_write_other s.rx.buf s.rx.cnt.toNat i b hi
  case inr.inr.inl =>
    have kept : t.rx.buf = s.rx.buf := by rw [(hostStep_hostRights h).rx]; rfl
    exact absurd (congrArg (Memory.read · i) kept) hread
  case inr.inr.inr => exact absurd ht (hreset rest)

end Sys2Proof.Machine

/-! ## The invariant (10_state.md R23, R32, R42) -/

namespace Sys2Proof.Machine

open Sys2Proof.Safety

/-- The invariant's clauses about the decoder context alone, with `cap` for SCRATCH_CAP. -/
structure DecoderInv (cap : Nat) (rx : Decoder) : Prop where
  rxState : rx.rxState ≠ .unused7
  bufForm : Memory.wf rx.buf
  bufRange : ∀ x ∈ rx.buf, x.1 < cap
  dataCtrl : rx.rxState = .len ∨ rx.rxState = .lenExt ∨ rx.rxState = .data → isDataCtrl rx.ctrl = true
  count0 : rx.rxState = .lenExt → rx.cnt = 0
  count : rx.rxState = .data → rx.cnt < rx.size
  room : rx.rxState = .data ∨ rx.rxState = .fcsCheck ∨ rx.rxState = .flagExpected →
    isDataCtrl rx.ctrl = true → rx.q ≠ none → rx.size.toNat ≤ cap

/-- The invariant, split by who writes the state it speaks of: the parameter, the host agent's registry fields, the RX
agent's decoder context, the host port. -/
theorem inv_iff (s : State) : Inv s ↔
    s.cfg.Ok ∧ (∀ d : Dlci, (s.chan d).mtu.toNat ≤ s.cfg.scratchCap) ∧ DecoderInv s.cfg.scratchCap s.rx ∧
      ∀ op, s.held = some op → op.frames ≠ [] :=
  ⟨fun ⟨cap, mtu, rxState, bufForm, bufRange, dataCtrl, count0, count, room, held⟩ =>
      ⟨cap, mtu, ⟨rxState, bufForm, bufRange, dataCtrl, count0, count, room⟩, held⟩,
    fun ⟨cap, mtu, ⟨rxState, bufForm, bufRange, dataCtrl, count0, count, room⟩, held⟩ =>
      ⟨cap, mtu, rxState, bufForm, bufRange, dataCtrl, count0, count, room, held⟩⟩

section DecoderSteps

variable {s t : State} {cap : Nat} {rx : Decoder}

/-- In WAITING_ADDRESS only the buffer's clauses are left. -/
theorem decoderInv_waiting (hr : rx.rxState = .waitingAddress) (hform : Memory.wf rx.buf)
    (hrange : ∀ x ∈ rx.buf, x.1 < cap) :
    DecoderInv cap rx :=
  ⟨by simp [hr], hform, hrange, by simp [hr], by simp [hr], by simp [hr], by simp [hr]⟩

theorem DecoderInv.restart (h : DecoderInv cap rx) : DecoderInv cap { rx with rxState := .waitingAddress } :=
  decoderInv_waiting rfl h.bufForm h.bufRange

theorem decoderInv_reset : DecoderInv cap Decoder.reset :=
  decoderInv_waiting rfl Memory.reset_wf nofun

/-- Nothing is asked of CMD either: its control byte and its length are still to come. -/
theorem rxAddress_decoderInv (b : Byte) (h : DecoderInv cap s.rx) : DecoderInv cap (rxAddress b s).rx := by
  unfold rxAddress
  split
  · exact { h with rxState := by simp, dataCtrl := by simp, count0 := by simp, count := by simp, room := by simp }
  · exact h

/-- R163: only a data frame's control byte leads to the length. -/
theorem captureControl_decoderInv (c : Byte) (h : DecoderInv cap s.rx) : DecoderInv cap (s.captureControl c).rx := by
  rw [State.captureControl_rx]
  cases hc : isDataCtrl c with
  | true =>
    exact { h with rxState := by simp, dataCtrl := fun _ => hc, count0 := by simp, count := by simp, room := by simp }
  | false =>
    exact { h with rxState := by simp, dataCtrl := by simp, count0 := by simp, count := by simp, room := by simp [hc] }

/-- R166: Finalise marks a frame longer than its channel's MTU for discard, so that a kept one fits the buffer. -/
theorem rxFinalise_decoderInv (hform : Memory.wf s.rx.buf) (hrange : ∀ x ∈ s.rx.buf, x.1 < cap)
    (hctrl : isDataCtrl s.rx.ctrl = true) (hcnt : s.rx.cnt = 0)
    (hmtu : (s.chan (addrDlci s.rx.addr)).mtu.toNat ≤ cap) : DecoderInv cap (rxFinalise s).rx where
  rxState := by
    unfold rxFinalise
    dsimp only
    split <;> simp
  bufForm := hform
  bufRange := hrange
  dataCtrl _ := hctrl
  count0 _ := hcnt
  count hr := by
    have hsize : s.rx.size ≠ 0 := fun h0 => by simp [rxFinalise, h0] at hr
    show s.rx.cnt < s.rx.size
    rw [hcnt]
    bv_omega
  room _ _ hq := by
    have fits : ¬ oversize s.rx.size (s.chan (addrDlci s.rx.addr)).mtu = true := fun hover => hq (if_pos hover)
    have hsize : s.rx.size.toNat ≤ (s.chan (addrDlci s.rx.addr)).mtu.toNat := by simpa [oversize] using fits
    exact hsize.trans hmtu

theorem rxLen_decoderInv (b : Byte) (h : DecoderInv cap s.rx) (hr : s.rx.rxState = .len)
    (hmtu : (s.chan (addrDlci s.rx.addr)).mtu.toNat ≤ cap) : DecoderInv cap (rxLen b s).rx := by
  have hctrl : isDataCtrl s.rx.ctrl = true := h.dataCtrl (.inl hr)
  unfold rxLen
  dsimp only
  split
  · exact rxFinalise_decoderInv h.bufForm h.bufRange hctrl rfl hmtu
  · exact { h with
      rxState := by simp
      dataCtrl := fun _ => hctrl
      count0 := fun _ => rfl
      count := by simp
      room := by simp }

theorem rxLenExt_decoderInv (b : Byte) (h : DecoderInv cap s.rx) (hr : s.rx.rxState = .lenExt)
    (hmtu : (s.chan (addrDlci s.rx.addr)).mtu.toNat ≤ cap) : DecoderInv cap (rxLenExt b s).rx :=
  rxFinalise_decoderInv h.bufForm h.bufRange (h.dataCtrl (.inr (.inl hr))) (h.count0 hr) hmtu

/-- R167, R168: a DATA step counts one byte, and leaves DATA with the last one. -/
theorem rxCount_decoderInv (h : DecoderInv cap s.rx) (hr : s.rx.rxState = .data) : DecoderInv cap (rxCount s).rx := by
  have room : isDataCtrl s.rx.ctrl = true → s.rx.q ≠ none → s.rx.size.toNat ≤ cap := h.room (.inl hr)
  have hctrl : isDataCtrl s.rx.ctrl = true := h.dataCtrl (.inr (.inr hr))
  have hlt : s.rx.cnt < s.rx.size := h.count hr
  unfold rxCount
  by_cases hlast : s.rx.cnt + 1 = s.rx.size
  · simp only [hlast, if_true]
    exact { h with rxState := by simp, dataCtrl := by simp, count0 := by simp, count := by simp, room := fun _ => room }
  · simp only [hlast, if_false, hr]
    have hnext : s.rx.cnt + 1 < s.rx.size := by bv_omega
    exact { h with
      rxState := by simp
      dataCtrl := fun _ => hctrl
      count0 := by simp
      count := fun _ => hnext
      room := fun _ => room }

theorem rxData_decoderInv (b : Byte) (h : DecoderInv s.cfg.scratchCap s.rx) (hr : s.rx.rxState = .data)
    (ht : rxData b s = .next t) : DecoderInv s.cfg.scratchCap t.rx := by
  rcases rxData_cases s b t ht with ⟨_, rfl⟩ | ⟨_, hcap, rfl⟩
  · exact rxCount_decoderInv h hr
  · refine rxCount_decoderInv ?_ hr
    exact { h with
      bufForm := Memory.write_wf s.rx.buf s.rx.cnt.toNat b h.bufForm
      bufRange := Memory.write_below s.rx.buf s.rx.cnt.toNat s.cfg.scratchCap b h.bufRange hcap }

theorem rxFcs_decoderInv (b : Byte) (h : DecoderInv cap s.rx) (hr : s.rx.rxState = .fcsCheck) :
    DecoderInv cap (rxFcs b s).rx :=
  { h with
    rxState := by simp [rxFcs]
    dataCtrl := by simp [rxFcs]
    count0 := by simp [rxFcs]
    count := by simp [rxFcs]
    room := fun _ => h.room (.inr (.inl hr)) }

/-- R42: every RX step keeps the decoder's clauses; Finalise relies on the MTU's bound (R32). -/
theorem rxStep_decoderInv {b : Byte} (h : DecoderInv s.cfg.scratchCap s.rx)
    (hmtu : ∀ d : Dlci, (s.chan d).mtu.toNat ≤ s.cfg.scratchCap) (ht : rxStep b s = .next t) :
    DecoderInv s.cfg.scratchCap t.rx := by
  rcases rxStep_cases s b t ht with
    ⟨_, rfl⟩ | ⟨_, ⟨_, rfl⟩ | ⟨hr, ht⟩ | ⟨hr, rfl⟩ | ⟨hr, rfl⟩ | ⟨hr, ht⟩ | ⟨hr, rfl⟩ | ⟨hr, ht⟩⟩
  · exact h
  · exact rxAddress_decoderInv b h
  · rw [exec_decodeCtrl_cmd s b hr] at ht
    cases ht
    exact captureControl_decoderInv b h
  · exact rxLen_decoderInv b h hr (hmtu _)
  · exact rxLenExt_decoderInv b h hr (hmtu _)
  · exact rxData_decoderInv b h hr ht
  · exact rxFcs_decoderInv b h hr
  · rw [rxFlag_rx hr ht]
    exact h.restart

end DecoderSteps

section HostSteps

variable {s t : State}

/-- A host turn leaves the decoder context or restarts it. -/
theorem HostRights.decoderInv {cap : Nat} (h : HostRights s t) (hs : DecoderInv cap s.rx) : DecoderInv cap t.rx := by
  rw [h.rx]
  rcases h.rxState with hr | ⟨hr, _⟩ <;> rw [hr]
  · exact hs
  · exact hs.restart

/-- A held operation still has a frame to send (R210). -/
theorem offerNext_held (hs : ∀ op, s.held = some op → op.frames ≠ []) :
    ∀ op, s.offerNext.held = some op → op.frames ≠ [] := by
  rcases s.offerNext_cases with ⟨_, h⟩ | ⟨op, hop, hnil, _⟩ | ⟨_, _, _, _, _, _, h⟩ | ⟨_, _, _, _, _, h⟩ |
    ⟨_, _, _, _, _, _, _, h⟩
  · rwa [h]
  · exact absurd hnil (hs op hop)
  · rwa [h]
  · simp [h]
  · simp [h]

theorem HostEffect.held {i : Instr} (h : HostEffect s i t) (hs : ∀ op, s.held = some op → op.frames ≠ []) :
    ∀ op, t.held = some op → op.frames ≠ [] := by
  cases h with
  | send q fs r hfs => exact offerNext_held (by simpa using hfs)
  | answer | cfgChan | bindQueue | setConn | ackDisc0 => exact hs
  | setMuxEn en =>
    rw [State.hostOk_held]
    split <;> exact hs

/-- R214: CFG_CHAN writes no MTU above SCRATCH_CAP. -/
theorem HostEffect.mtu_le_of_cfgChan {d : Dlci} {m : Mode} {mtu : Mtu} (h : HostEffect s (.cfgChan d m mtu) t) :
    t.reg = s.reg ∨ mtu.toNat ≤ s.cfg.scratchCap := by
  cases h with
  | send q fs r => exact .inl (State.startSend_reg s q fs r)
  | answer r => exact .inl rfl
  | cfgChan _ _ _ hmtu => exact .inr hmtu

/-- R32: an MTU that a host operation changes is one that CFG_CHAN has accepted. -/
theorem HostEffect.mtu_le {i : Instr} (h : HostEffect s i t) (d : Dlci) (hs : (s.chan d).mtu.toNat ≤ s.cfg.scratchCap) :
    (t.chan d).mtu.toNat ≤ s.cfg.scratchCap := by
  by_cases same : (t.chan d).mtu = (s.chan d).mtu
  · rwa [same]
  · obtain rfl := (h.writtenBy d).format (.inr same)
    rcases h.mtu_le_of_cfgChan with hreg | hmtu
    · rwa [State.chan_congr d hreg]
    · exact hmtu

theorem hostStep_inv (hs : Inv s) (h : hostStep s = .next t) : Inv t := by
  have rights : HostRights s t := hostStep_hostRights h
  obtain ⟨cap, mtu, decoder, held⟩ := (inv_iff s).mp hs
  rw [inv_iff, rights.cfg]
  rcases hostStep_effect h with ⟨_, rfl⟩ | rfl | ⟨op, rest, _, _, effect⟩
  · refine ⟨cap, fun d => ?_, rights.decoderInv decoder, offerNext_held held⟩
    rw [State.chan_congr d s.offerNext_reg]
    exact mtu d
  · exact ⟨cap, mtu, decoder, held⟩
  · exact ⟨cap, fun d => effect.mtu_le d (mtu d), rights.decoderInv decoder, effect.held held⟩

end HostSteps

theorem rxStep_inv {b : Byte} {s t : State} (hs : Inv s) (h : rxStep b s = .next t) : Inv t := by
  have effect : RxEffect b s t := rxStep_effect h
  obtain ⟨cap, mtu, decoder, held⟩ := (inv_iff s).mp hs
  rw [inv_iff, effect.rxRights.cfg, effect.rxRights.held]
  refine ⟨cap, fun d => ?_, rxStep_decoderInv decoder mtu h, held⟩
  obtain ⟨_, kept, _⟩ := effect.chan d
  rw [kept]
  exact mtu d

theorem beginTurn_inv {s : State} (hs : Inv s) (rest : List Turn) (a : Answers) : Inv (s.beginTurn rest a) :=
  (inv_iff _).mpr ((inv_iff s).mp hs)

/-- The reset values of R270 meet the invariant whatever SCRATCH_CAP is. -/
theorem resetBlock_inv {s : State} (hs : s.cfg.Ok) : Inv s.resetBlock :=
  (inv_iff _).mpr ⟨hs, fun d => by simp [Channel.reset], decoderInv_reset, nofun⟩

/-- Settles O15: the reset state is a block just reset, with SCRATCH_CAP in the range of R5. -/
theorem resetMeetsTheInvariant : Obligations.ResetMeetsTheInvariant :=
  resetBlock_inv (s := State.reset) (by decide)

/-- Settles O16, turn by turn: an RX step by `rxStep_inv`, a host step by `hostStep_inv`, a reset by `resetBlock_inv`. -/
theorem everyStepKeepsTheInvariant : Obligations.EveryStepKeepsTheInvariant := by
  intro s t hs h
  rcases step_cases s t h with ⟨_, rfl⟩ | ⟨b, a, rest, _, h⟩ | ⟨a, rest, _, h⟩ | ⟨rest, _, rfl⟩
  · exact hs
  · exact rxStep_inv (beginTurn_inv hs rest a) h
  · exact hostStep_inv (beginTurn_inv hs rest a) h
  · exact resetBlock_inv hs.cap

end Sys2Proof.Machine

/-! ## Reset values, the two stops, UA and DM (10_state.md R34, R35, R270; 20_memory.md R60; 42_rx_fsm.md R160) -/

namespace Sys2Proof.Machine

/-- Settles O12: the registry's clause is `State.chan_reset`, the others are fields of `State.reset`. -/
theorem resetLeavesTheStatedValues : Obligations.ResetLeavesTheStatedValues :=
  ⟨rfl, State.chan_reset, rfl, rfl, rfl, rfl, rfl⟩

/-- Settles O35: in FLAG_EXPECTED the two instructions close their frame, by `exec_ua_close` and `exec_dm_close`. -/
theorem uaAndDmAreCounted : Obligations.UaAndDmAreCounted := by
  intro pf s hr
  have closing : s.rx.rxState ≠ .cmd := by simp [hr]
  exact ⟨exec_ua_close s pf closing, exec_dm_close s pf closing⟩

section Stops

variable {s : State} (b : Byte)

/-- R160: a byte at `rx_state = 7` stops the model (log 6). -/
theorem rxStep_unused7 (hm : s.muxEn = true) (hr : s.rx.rxState = .unused7) : rxStep b s = .fault .rxStateUnused := by
  simp [rxStep, hm, hr]

theorem rxStep_data (hm : s.muxEn = true) (hr : s.rx.rxState = .data) : rxStep b s = rxData b s := by
  simp [rxStep, hm, hr]

/-- R167: a discarded frame's byte is counted and lost. -/
theorem rxData_discarded (hq : s.rx.q = none) : rxData b s = .next (rxCount s) := by
  simp [rxData, hq]

/-- R60(a): a kept frame's byte at SCRATCH_CAP or above stops the model (log 7). -/
theorem rxData_full (hq : s.rx.q ≠ none) (hc : s.cfg.scratchCap ≤ s.rx.cnt.toNat) :
    rxData b s = .fault .scratchOutOfRange := by
  obtain ⟨h, hh⟩ := Option.ne_none_iff_exists'.mp hq
  simp [rxData, hh, hc]

/-- R60(a): a delivery of more than SCRATCH_CAP bytes stops the model (log 7). -/
theorem State.deliver_full (hq : s.rx.q ≠ none)
    (hd : deliverable (addrDlci s.rx.addr) (s.chan (addrDlci s.rx.addr)) = true)
    (hc : s.cfg.scratchCap < min s.rx.size.toNat s.env.answers.qFree) : s.deliver = .fault .scratchOutOfRange := by
  obtain ⟨h, hh⟩ := Option.ne_none_iff_exists'.mp hq
  rw [s.deliver_push h hh hd, State.pushPayload_eq]
  exact if_pos hc

end Stops

/-- Settles O21: the three stops are `rxStep_unused7`, `rxData_full` and `State.deliver_full`. -/
theorem theTwoStops : Obligations.TheTwoStops := by
  refine ⟨?unusedState, ?dataStep, ?delivery⟩
  case unusedState =>
    intro s b a rest ht hm hr
    rw [step_rx s b a rest ht]
    exact rxStep_unused7 b hm hr
  case dataStep =>
    intro s b a rest ht hm hr hq hc
    calc step s
      _ = rxStep b (s.beginTurn rest a) := step_rx s b a rest ht
      _ = rxData b (s.beginTurn rest a) := rxStep_data b hm hr
      _ = .fault .scratchOutOfRange := rxData_full b hq hc
  case delivery =>
    intro i pf s hi hr hq hd hc
    have closing : s.rx.rxState ≠ .cmd := by simp [hr]
    have delivers : exec i s = s.deliver := by
      rcases hi with rfl | rfl
      · exact exec_ui_close s pf closing
      · exact exec_uih_close s pf closing
    rw [delivers]
    exact State.deliver_full hq (by simpa [deliverable] using hd) hc

end Sys2Proof.Machine

/-! ## Unspecified decoder fields never matter (10_state.md R24-R29; 70_reset_and_hazards.md R270) -/

namespace Sys2Proof.Safety

open Sys2Proof.Machine

section AgreementOfOperations

variable {s t : State}

/-! ### Each operation on the state keeps two agreeing states in agreement -/

theorem Agree.refl (hb : Memory.wf s.rx.buf) : Agree s s :=
  ⟨rfl, rfl, rfl, rfl, rfl, rfl, rfl, rfl, rfl, rfl, rfl, fun _ _ => ⟨rfl, rfl, rfl⟩, fun _ _ _ => rfl, fun _ _ _ => rfl,
    fun _ => rfl, fun _ => rfl, ⟨hb, hb⟩, fun _ _ _ _ => rfl, fun _ _ _ _ _ => rfl⟩

theorem Agree.chan (h : Agree s t) (d : Dlci) : s.chan d = t.chan d := State.chan_congr d h.reg

/-- In WAITING_ADDRESS no decoder field but `rx_state` is compared. -/
theorem Agree.restart (h : Agree s t) : Agree (s.setRxState .waitingAddress) (t.setRxState .waitingAddress) :=
  { h with
    rxState := rfl
    header := by simp
    fcs := by simp
    ctrl := by simp
    size := by simp
    cnt := by simp
    bufSoFar := by simp
    bufAll := by simp }

theorem Agree.beginTurn (h : Agree s t) (rest : List Turn) (a : Answers) : Agree (s.beginTurn rest a) (t.beginTurn rest a) :=
  { h with env := by simp [h.env] }

theorem Agree.logEvent (h : Agree s t) (e : Event) : Agree (s.logEvent e) (t.logEvent e) :=
  { h with out := by simp [h.out] }

theorem Agree.emitRaw (h : Agree s t) (b : Byte) : Agree (s.emitRaw b) (t.emitRaw b) :=
  { h with out := by simp [h.out] }

theorem Agree.reply (h : Agree s t) (r : HostReply) : Agree (s.reply r) (t.reply r) :=
  { h with out := by simp [h.out] }

theorem Agree.push (h : Agree s t) (q : Handle) (bytes : List Byte) : Agree (s.push q bytes) (t.push q bytes) :=
  { h with out := by simp [h.out] }

theorem Agree.countDrops (h : Agree s t) (n : Nat) : Agree (s.countDrops n) (t.countDrops n) :=
  { h with rxDropCount := by simp [h.rxDropCount] }

theorem Agree.countUa (h : Agree s t) : Agree s.countUa t.countUa :=
  { h with uaCount := by simp [h.uaCount] }

theorem Agree.countDm (h : Agree s t) : Agree s.countDm t.countDm :=
  { h with dmCount := by simp [h.dmCount] }

theorem Agree.withDisc0 (h : Agree s t) (v : Bool) : Agree { s with disc0Pending := v } { t with disc0Pending := v } :=
  { h with disc0Pending := rfl }

theorem Agree.withMuxEn (h : Agree s t) (v : Bool) : Agree { s with muxEn := v } { t with muxEn := v } :=
  { h with muxEn := rfl }

theorem Agree.withHeld (h : Agree s t) (op : Option Held) : Agree { s with held := op } { t with held := op } :=
  { h with held := rfl }

theorem Agree.withHostInput (h : Agree s t) (ops : List HostCmd) (p : List Byte) :
    Agree { s with env := { s.env with hostOps := ops, payload := p } }
      { t with env := { t.env with hostOps := ops, payload := p } } :=
  { h with env := by simp [h.env] }

theorem Agree.setChan (h : Agree s t) (d : Dlci) (c : Channel) : Agree (s.setChan d c) (t.setChan d c) :=
  { h with reg := by simp [h.reg] }

theorem Agree.setConnected (h : Agree s t) (d : Dlci) (v : Bool) : Agree (s.setConnected d v) (t.setConnected d v) := by
  unfold State.setConnected
  rw [← h.chan d]
  exact h.setChan d _

theorem Agree.enqueue (h : Agree s t) (q : TxQueue) (f : Frame) : Agree (s.enqueue q f) (t.enqueue q f) := by
  cases q with
  | hi => exact { h with out := by simp [h.out] }
  | lo => exact { h with out := by simp [h.out] }

theorem Agree.replyFrame (h : Agree s t) (d : Dlci) (cr : Bool) (c2 : Byte) :
    Agree (s.replyFrame d cr c2) (t.replyFrame d cr c2) := by
  unfold State.replyFrame
  rw [← h.env]
  split
  · exact h.enqueue .hi _
  · exact h.logEvent .replyDrop

theorem Agree.offerNext (h : Agree s t) : Agree s.offerNext t.offerNext := by
  have answers : s.env.answers = t.env.answers := congrArg Env.answers h.env
  unfold State.offerNext
  rw [← h.held, ← answers]
  rcases s.held with _ | ⟨q, frames, r⟩
  · exact h
  · rcases frames with _ | ⟨f, _ | ⟨g, fs⟩⟩
    · exact (h.withHeld none).reply r
    · dsimp only
      split
      · exact ((h.withHeld none).enqueue q f).reply r
      · exact h
    · dsimp only
      split
      · exact (h.withHeld _).enqueue q f
      · exact h

theorem Agree.startSend (h : Agree s t) (q : TxQueue) (fs : List Frame) (r : HostReply) :
    Agree (s.startSend q fs r) (t.startSend q fs r) :=
  (h.withHeld _).offerNext

end AgreementOfOperations

section AgreementOfRxSteps

variable {s t : State}

/-! ### An RX step, by the state it finds the FSM in: what it reads is compared there, what it writes it writes alike -/

theorem Agree.rxAddress (h : Agree s t) (b : Byte) : Agree (rxAddress b s) (rxAddress b t) := by
  unfold Machine.rxAddress
  rw [← h.chan (addrDlci b)]
  split
  · exact { h with
      rxState := rfl
      header := fun _ _ => ⟨rfl, rfl, rfl⟩
      fcs := fun _ _ _ => rfl
      ctrl := by simp
      size := by simp
      cnt := by simp
      bufSoFar := by simp
      bufAll := by simp }
  · exact h

/-- R163: of a command frame no length is read, and that of a data frame is still to come. -/
theorem Agree.captureControl (h : Agree s t) (c : Byte) (hr : s.rx.rxState = .cmd) :
    Agree (s.captureControl c) (t.captureControl c) :=
  { h with
    rxState := rfl
    header := fun _ _ => h.header (by simp [hr]) (by simp [hr])
    fcs := fun _ _ _ => congrArg (upd · c) (h.fcs (by simp [hr]) (by simp [hr]) (by simp [hr]))
    ctrl := fun _ _ _ => rfl
    size := by cases hc : isDataCtrl c <;> simp [hc]
    cnt := by cases hc : isDataCtrl c <;> simp [hc]
    bufSoFar := by cases hc : isDataCtrl c <;> simp [hc]
    bufAll := by cases hc : isDataCtrl c <;> simp [hc] }

theorem rxFinalise_q (hq : (rxFinalise s).rx.q ≠ none) : s.rx.q ≠ none := fun hnone => hq (by simp [rxFinalise, hnone])

/-- R166: Finalise reads the address, the destination and the length, which are all written by then. -/
theorem Agree.rxFinalise (h : Agree s t) (hr : s.rx.rxState = .lenExt) : Agree (rxFinalise s) (rxFinalise t) := by
  obtain ⟨haddr, hq, hvalid⟩ := h.header (by simp [hr]) (by simp [hr])
  have hsize : s.rx.size = t.rx.size := h.size (.inl hr)
  exact { h with
    rxState := by simp [Machine.rxFinalise, hsize]
    header := fun _ _ => ⟨haddr, by simp [Machine.rxFinalise, haddr, hq, hsize, h.chan], hvalid⟩
    fcs := fun _ _ _ => h.fcs (by simp [hr]) (by simp [hr]) (by simp [hr])
    ctrl := fun _ _ _ => h.ctrl (by simp [hr]) (by simp [hr]) (by simp [hr])
    size := fun _ => hsize
    cnt := fun _ => h.cnt (.inl hr)
    bufSoFar := fun _ hkept => h.bufSoFar (.inl hr) (rxFinalise_q hkept)
    bufAll := fun hstate _ _ i hi => by
      have hzero : s.rx.size = 0 := by
        by_contra hne
        have stays : (Machine.rxFinalise s).rx.rxState = .data := if_neg hne
        simp [stays] at hstate
      exact absurd (show i < s.rx.size.toNat from hi) (by simp [hzero]) }

/-- The first length byte starts the length and the count (R164); Finalise, if it follows, does not read `rx_state`. -/
theorem Agree.rxLen (h : Agree s t) (b : Byte) (hr : s.rx.rxState = .len) : Agree (rxLen b s) (rxLen b t) := by
  have started : Agree
      { s with rx := { s.rx with fcs := upd s.rx.fcs b, size := lenFirst b, cnt := 0, rxState := .lenExt } }
      { t with rx := { t.rx with fcs := upd t.rx.fcs b, size := lenFirst b, cnt := 0, rxState := .lenExt } } :=
    { h with
      rxState := rfl
      header := fun _ _ => h.header (by simp [hr]) (by simp [hr])
      fcs := fun _ _ _ => congrArg (upd · b) (h.fcs (by simp [hr]) (by simp [hr]) (by simp [hr]))
      ctrl := fun _ _ _ => h.ctrl (by simp [hr]) (by simp [hr]) (by simp [hr])
      size := fun _ => rfl
      cnt := fun _ => rfl
      bufSoFar := by simp
      bufAll := by simp }
  unfold Machine.rxLen
  dsimp only
  split
  · exact started.rxFinalise rfl
  · exact started

theorem Agree.rxLenExt (h : Agree s t) (b : Byte) (hr : s.rx.rxState = .lenExt) : Agree (rxLenExt b s) (rxLenExt b t) := by
  refine Agree.rxFinalise ?_ hr
  exact { h with
    fcs := fun _ _ _ => congrArg (upd · b) (h.fcs (by simp [hr]) (by simp [hr]) (by simp [hr]))
    size := fun _ => congrArg (lenSecond · b) (h.size (.inl hr))
    bufAll := by simp [hr] }

/-- R167, R168: after the count the buffers agree on one byte more, or the frame is one to discard. -/
theorem Agree.rxCount (h : Agree s t) (hr : s.rx.rxState = .data)
    (hbuf : s.rx.q ≠ none → ∀ i < s.rx.cnt.toNat + 1, s.rx.buf.read i = t.rx.buf.read i) :
    Agree (rxCount s) (rxCount t) := by
  have hsize : s.rx.size = t.rx.size := h.size (.inr (.inl hr))
  have hcnt : s.rx.cnt = t.rx.cnt := h.cnt (.inr hr)
  have hbuf' (hq : s.rx.q ≠ none) (i : Nat) (hi : i < (s.rx.cnt + 1).toNat) : s.rx.buf.read i = t.rx.buf.read i :=
    hbuf hq i (by bv_omega)
  exact { h with
    rxState := by simp [Machine.rxCount, hsize, hcnt, h.rxState]
    header := fun _ _ => h.header (by simp [hr]) (by simp [hr])
    fcs := fun _ _ _ => h.fcs (by simp [hr]) (by simp [hr]) (by simp [hr])
    ctrl := fun _ _ _ => h.ctrl (by simp [hr]) (by simp [hr]) (by simp [hr])
    size := fun _ => hsize
    cnt := fun _ => congrArg (· + 1) hcnt
    bufSoFar := fun _ hq => hbuf' hq
    bufAll := fun hstate _ hq i hi => by
      have hlast : s.rx.cnt + 1 = s.rx.size := by
        by_contra hne
        have stays : (Machine.rxCount s).rx.rxState = .data := (if_neg hne).trans hr
        simp [stays] at hstate
      exact hbuf' hq i (hlast ▸ hi) }

theorem Agree.rxData (h : Agree s t) (b : Byte) (hr : s.rx.rxState = .data) : AgreeOutcome (rxData b s) (rxData b t) := by
  obtain ⟨_, hq, _⟩ := h.header (by simp [hr]) (by simp [hr])
  have hcnt : s.rx.cnt = t.rx.cnt := h.cnt (.inr hr)
  by_cases hnone : s.rx.q = none
  · rw [rxData_discarded b hnone, rxData_discarded b (hq ▸ hnone)]
    exact h.rxCount hr (absurd hnone)
  · by_cases hfull : s.cfg.scratchCap ≤ s.rx.cnt.toNat
    · rw [rxData_full b hnone hfull, rxData_full b (hq ▸ hnone) (h.cfg ▸ hcnt ▸ hfull)]
      exact rfl
    · have room : s.rx.cnt.toNat < s.cfg.scratchCap := Nat.not_le.mp hfull
      have written (i : Nat) (hi : i < s.rx.cnt.toNat + 1) :
          (s.rx.buf.write s.rx.cnt.toNat b).read i = (t.rx.buf.write t.rx.cnt.toNat b).read i := by
        obtain ⟨hs, ht⟩ := h.bufForm
        rw [← hcnt]
        by_cases hlast : i = s.rx.cnt.toNat
        · rw [hlast, Memory.read_write_same _ _ _ hs, Memory.read_write_same _ _ _ ht]
        · rw [Memory.read_write_other _ _ _ _ (Ne.symm hlast), Memory.read_write_other _ _ _ _ (Ne.symm hlast)]
          exact h.bufSoFar (.inr hr) hnone i (by omega)
      rw [rxData_kept s b hnone room, rxData_kept t b (hq ▸ hnone) (h.cfg ▸ hcnt ▸ room)]
      refine Agree.rxCount ?_ hr (fun _ => written)
      have hctrl : s.rx.ctrl = t.rx.ctrl := h.ctrl (by simp [hr]) (by simp [hr]) (by simp [hr])
      have hfcs : s.rx.fcs = t.rx.fcs := h.fcs (by simp [hr]) (by simp [hr]) (by simp [hr])
      exact { h with
        fcs := fun _ _ _ => by simp [hctrl, hfcs]
        bufForm := ⟨Memory.write_wf _ _ _ h.bufForm.1, Memory.write_wf _ _ _ h.bufForm.2⟩
        bufSoFar := fun _ _ i hi => written i (Nat.lt_succ_of_lt hi)
        bufAll := by simp [hr] }

/-- R169: after the check the accumulator is not read again. -/
theorem Agree.rxFcs (h : Agree s t) (b : Byte) (hr : s.rx.rxState = .fcsCheck) : Agree (rxFcs b s) (rxFcs b t) := by
  obtain ⟨haddr, hq, hvalid⟩ := h.header (by simp [hr]) (by simp [hr])
  have hfcs : s.rx.fcs = t.rx.fcs := h.fcs (by simp [hr]) (by simp [hr]) (by simp [hr])
  exact { h with
    rxState := rfl
    header := fun _ _ => ⟨haddr, hq, by simp [Machine.rxFcs, hfcs, hvalid]⟩
    fcs := by simp [Machine.rxFcs]
    ctrl := fun _ _ _ => h.ctrl (by simp [hr]) (by simp [hr]) (by simp [hr])
    size := fun hdata => h.size (.inr (.inr ⟨.inl hr, by simpa [Machine.rxFcs] using hdata⟩))
    cnt := by simp [Machine.rxFcs]
    bufSoFar := by simp [Machine.rxFcs]
    bufAll := fun _ => h.bufAll (.inl hr) }

theorem Agree.pushPayload (h : Agree s t) (q : Handle) (hsize : s.rx.size = t.rx.size)
    (hbuf : ∀ i < s.rx.size.toNat, s.rx.buf.read i = t.rx.buf.read i) :
    AgreeOutcome (s.pushPayload q) (t.pushPayload q) := by
  have answers : s.env.answers = t.env.answers := congrArg Env.answers h.env
  have bytes : s.rx.buf.readFirst (min s.rx.size.toNat s.env.answers.qFree) =
      t.rx.buf.readFirst (min s.rx.size.toNat s.env.answers.qFree) :=
    Memory.readFirst_congr _ _ _ fun i hi => hbuf i (hi.trans_le (Nat.min_le_left ..))
  unfold State.pushPayload
  dsimp only
  rw [← hsize, ← answers, ← h.cfg, bytes]
  split
  · exact rfl
  · split
    · exact ((h.push q _).countDrops _).logEvent .qFull
    · exact h.push q _

/-- R170: a delivery reads the declared length and as many bytes of the buffer as were received. -/
theorem Agree.deliver (h : Agree s t) (hr : s.rx.rxState = .flagExpected) (hc : isDataCtrl s.rx.ctrl = true) :
    AgreeOutcome s.deliver t.deliver := by
  obtain ⟨haddr, hq, _⟩ := h.header (by simp [hr]) (by simp [hr])
  have hsize : s.rx.size = t.rx.size := h.size (.inr (.inr ⟨.inr hr, hc⟩))
  have hdeliverable : deliverable (addrDlci s.rx.addr) (s.chan (addrDlci s.rx.addr)) =
      deliverable (addrDlci t.rx.addr) (t.chan (addrDlci t.rx.addr)) := by rw [haddr, h.chan]
  cases hqueue : s.rx.q with
  | none =>
    rw [s.deliver_none hqueue, t.deliver_none (hq ▸ hqueue)]
    exact h.restart.logEvent .discard
  | some q =>
    cases hd : deliverable (addrDlci s.rx.addr) (s.chan (addrDlci s.rx.addr)) with
    | false =>
      rw [s.deliver_unconnected q hqueue hd, t.deliver_unconnected q (hq ▸ hqueue) (hdeliverable ▸ hd)]
      exact h.restart.logEvent .unconnected
    | true =>
      rw [s.deliver_push q hqueue hd, t.deliver_push q (hq ▸ hqueue) (hdeliverable ▸ hd)]
      exact h.restart.pushPayload q hsize (h.bufAll (.inr hr) hc (by simp [hqueue]))

theorem Agree.discAction (h : Agree s t) (dc : BitVec 7) : Agree (discAction dc s) (discAction dc t) := by
  have answer : Agree (discAnswer dc s) (discAnswer dc t) := by
    unfold discAnswer
    rw [← h.chan (dcDlci dc)]
    split
    · exact (h.setConnected _ _).replyFrame _ _ _
    · exact h.replyFrame _ _ _
  rw [discAction_eq, discAction_eq]
  split
  · exact answer.withDisc0 true
  · exact answer

theorem Agree.managerAction (h : Agree s t) (c : Byte) (dc : BitVec 7) :
    Agree (managerAction c dc s) (managerAction c dc t) := by
  rcases managerAction_cases c with ⟨_, hc⟩ | ⟨_, hc⟩ | hc | hc | hc <;> rw [hc]
  · exact (h.setConnected _ _).replyFrame _ _ _
  · exact h.discAction dc
  · exact h.countUa
  · exact h.countDm
  · exact h.logEvent .otherCmd

theorem Agree.rxFlag (h : Agree s t) (b : Byte) (hr : s.rx.rxState = .flagExpected) :
    AgreeOutcome (rxFlag b s) (rxFlag b t) := by
  obtain ⟨haddr, _, hvalid⟩ := h.header (by simp [hr]) (by simp [hr])
  have hctrl : s.rx.ctrl = t.rx.ctrl := h.ctrl (by simp [hr]) (by simp [hr]) (by simp [hr])
  unfold Machine.rxFlag
  rw [← hvalid, ← hctrl]
  split
  · exact h.restart.logEvent .framing
  · split
    · rw [exec_decodeCtrl_close s _ (by simp [hr]), exec_decodeCtrl_close t _ (by simp [← h.rxState, hr])]
      split
      case isTrue hc => exact h.deliver hr hc
      case isFalse =>
        unfold connMgr
        rw [← haddr]
        exact (h.managerAction _ _).restart
    · exact h.restart.logEvent .fcs

theorem Agree.rxStep (h : Agree s t) (b : Byte) : AgreeOutcome (rxStep b s) (rxStep b t) := by
  unfold Machine.rxStep
  rw [← h.muxEn, ← h.rxState]
  split
  · cases hr : s.rx.rxState with
    | waitingAddress => exact h.rxAddress b
    | cmd =>
      dsimp only
      rw [exec_decodeCtrl_cmd s b hr, exec_decodeCtrl_cmd t b (h.rxState ▸ hr)]
      exact h.captureControl b hr
    | len => exact h.rxLen b hr
    | lenExt => exact h.rxLenExt b hr
    | data => exact h.rxData b hr
    | fcsCheck => exact h.rxFcs b hr
    | flagExpected => exact h.rxFlag b hr
    | unused7 => exact rfl
  · exact h.emitRaw b

end AgreementOfRxSteps

section AgreementOfHostSteps

variable {s t : State}

/-! ### A host operation reads `rx_state` and no other decoder field -/

theorem Agree.execHost (h : Agree s t) (i : Instr) (hi : isHostInstr i = true) : AgreeOutcome (exec i s) (exec i t) := by
  cases i with
  | ui | uih | sabm | ua | dm | disc | other => cases hi
  | sendCmd d cr c => exact h.startSend _ _ _
  | sendData d cr =>
    show AgreeOutcome (execSendData d cr s) (execSendData d cr t)
    unfold execSendData
    rw [← h.chan d, ← h.env]
    dsimp only
    split
    · exact h.reply _
    · exact h.startSend _ _ _
  | cfgChan d m mtu =>
    show AgreeOutcome (execCfgChan d m mtu s) (execCfgChan d m mtu t)
    unfold execCfgChan State.setFormat
    rw [← h.chan d, ← h.cfg]
    split
    · exact h.reply _
    · exact (h.setChan d _).reply _
  | bindQueue d bind q =>
    show AgreeOutcome (execBindQueue d bind q s) (execBindQueue d bind q t)
    unfold execBindQueue State.setQueue
    rw [← h.chan d]
    exact (h.setChan d _).reply _
  | setConn d v => exact (h.setConnected d v).reply _
  | readChan d =>
    show AgreeOutcome (execReadChan d s) (execReadChan d t)
    unfold execReadChan
    rw [← h.chan d]
    exact h.reply _
  | readStatus =>
    show AgreeOutcome (execReadStatus s) (execReadStatus t)
    unfold execReadStatus
    rw [← h.uaCount, ← h.dmCount, ← h.rxDropCount, ← h.disc0Pending, ← h.muxEn, ← h.rxState]
    exact h.reply _
  | ackDisc0 => exact (h.withDisc0 false).reply _
  | setMuxEn en =>
    show AgreeOutcome (execSetMuxEn en s) (execSetMuxEn en t)
    unfold execSetMuxEn
    rw [← h.muxEn]
    dsimp only
    split
    · exact (h.restart.withMuxEn en).reply _
    · exact (h.withMuxEn en).reply _
  | reservedOp0 | reservedOpA | reservedOpB | reservedOpC | reservedOpD | reservedOpE | reservedOpF => exact h.reply _

theorem Agree.hostStep (h : Agree s t) : AgreeOutcome (hostStep s) (hostStep t) := by
  unfold Machine.hostStep
  rw [← h.held, ← h.env]
  cases s.held with
  | some op => exact h.offerNext
  | none =>
    cases s.env.hostOps with
    | nil => exact h
    | cons op rest => exact (h.withHostInput rest op.payload).execHost _ (isHostInstr_decodeHost op.word)

end AgreementOfHostSteps

/-- A reset gives every decoder field its reset value, whatever it was (R270, R271). -/
theorem Agree.resetBlock {s t : State} (h : Agree s t) : Agree s.resetBlock t.resetBlock := by
  have same : s.resetBlock = t.resetBlock := by simp [State.resetBlock, h.cfg, h.env, h.out]
  rw [← same]
  exact Agree.refl Memory.reset_wf

/-- Settles O18, turn by turn: `Agree.rxStep`, `Agree.hostStep`, `Agree.resetBlock`. -/
theorem unspecifiedFieldsNeverMatter : Obligations.UnspecifiedFieldsNeverMatter := by
  intro s t h
  unfold step
  rw [← h.env]
  split
  · exact h
  · exact (h.beginTurn _ _).rxStep _
  · exact (h.beginTurn _ _).hostStep
  · exact (h.beginTurn _ _).resetBlock

end Sys2Proof.Safety

/-! ## A send operation on the host port (20_memory.md R65, R71; 44_host_ops.md R210-R213) -/

namespace Sys2Proof.Machine

/-- What the two transmit queues hold once queue `q` has accepted `frames`, in order (R65, R71). -/
def Outputs.accept (o : Outputs) (q : TxQueue) (frames : List Frame) : Outputs :=
  { o with
    txHi := if q = .hi then o.txHi ++ frames else o.txHi
    txLo := if q = .hi then o.txLo else o.txLo ++ frames }

theorem Outputs.accept_append (o : Outputs) (q : TxQueue) (fs gs : List Frame) :
    (o.accept q fs).accept q gs = o.accept q (fs ++ gs) := by
  cases q <;> simp [Outputs.accept]

/-- The port is free again: queue `q` has accepted the last `frames` of a send, which has returned `r` (R210, R213). -/
def State.completeSend (s : State) (q : TxQueue) (frames : List Frame) (r : HostReply) : State :=
  { s with held := none, out := { s.out.accept q frames with replies := s.out.replies ++ [r] } }

/-- One frame of a send is accepted, and `op` still holds the port with the frames after it (R213). -/
def State.continueSend (s : State) (op : Held) (f : Frame) : State :=
  { s with held := some op, out := s.out.accept op.queue [f] }

/-- A frame accepted first and the rest of its send later are accepted in that order. -/
theorem State.completeSend_continueSend (s : State) (op : Held) (f : Frame) (fs : List Frame) (r : HostReply) :
    (s.continueSend op f).completeSend op.queue fs r = s.completeSend op.queue (f :: fs) r := by
  simp only [State.completeSend, State.continueSend, Outputs.accept_append]
  rfl

theorem State.enqueue_eq (s : State) (q : TxQueue) (f : Frame) : s.enqueue q f = { s with out := s.out.accept q [f] } := by
  cases q <;> rfl

section HeldSend

variable {s : State} {op : Held} {f g : Frame} {fs : List Frame} {a : Answers} {rest : List Turn}

/-! ### The offer of a turn, by what the turn answers -/

theorem State.offerNext_refused (hh : s.held = some op) (hf : op.frames = f :: fs) (ha : s.env.answers.txAccept = false) :
    s.offerNext = s := by
  simp [State.offerNext, hh, hf, ha]

theorem State.offerNext_last (hh : s.held = some op) (hf : op.frames = [f]) (ha : s.env.answers.txAccept = true) :
    s.offerNext = s.completeSend op.queue [f] op.reply := by
  simp only [State.offerNext, hh, hf, ha, State.enqueue_eq, if_true]
  rfl

theorem State.offerNext_more (hh : s.held = some op) (hf : op.frames = f :: g :: fs)
    (ha : s.env.answers.txAccept = true) : s.offerNext = s.continueSend { op with frames := g :: fs } f := by
  simp [State.offerNext, hh, hf, ha, State.enqueue_eq, State.continueSend]

/-! ### A host turn while an operation holds the port -/

/-- R210: the turn goes on with the operation. -/
theorem step_held (ht : s.env.turns = .host a :: rest) (hh : s.held = some op) :
    step s = .next (s.beginTurn rest a).offerNext := by
  simp [step_host s a rest ht, hostStep, hh]

/-- R213: without acceptance the offer stays held. -/
theorem step_held_refused (ht : s.env.turns = .host a :: rest) (hh : s.held = some op) (hf : op.frames = f :: fs)
    (ha : a.txAccept = false) : step s = .next (s.beginTurn rest a) := by
  rw [step_held ht hh, State.offerNext_refused (s := s.beginTurn rest a) hh hf ha]

/-- R210, R213: the acceptance of the last frame ends the operation. -/
theorem step_held_last (ht : s.env.turns = .host a :: rest) (hh : s.held = some op) (hf : op.frames = [f])
    (ha : a.txAccept = true) : step s = .next ((s.beginTurn rest a).completeSend op.queue [f] op.reply) := by
  rw [step_held ht hh, State.offerNext_last (s := s.beginTurn rest a) hh hf ha]

/-- R213: after the acceptance of an earlier frame the operation holds the port with the others. -/
theorem step_held_more (ht : s.env.turns = .host a :: rest) (hh : s.held = some op) (hf : op.frames = f :: g :: fs)
    (ha : a.txAccept = true) :
    step s = .next ((s.beginTurn rest a).continueSend { op with frames := g :: fs } f) := by
  rw [step_held ht hh, State.offerNext_more (s := s.beginTurn rest a) hh hf ha]

end HeldSend

/-- Settles O41: on the held port a host turn's offer is refused, accepted as the last, or accepted before others. -/
theorem heldSendWaitsForAcceptance : Obligations.HeldSendWaitsForAcceptance := by
  intro s a rest op f fs ht hh hf
  refine ⟨fun ha => step_held_refused ht hh hf ha, fun ha => ?accepted⟩
  case accepted =>
    cases fs with
    | nil => exact step_held_last ht hh hf ha
    | cons g fs => exact step_held_more ht hh hf ha

section RunOfASend

variable {a : Answers} {rest : List Turn}

/-- R213, R71: with one accepting host turn for each frame, a held operation sends all its frames in order and returns. By
induction on the frames it still has. -/
theorem run_held_accepted (ha : a.txAccept = true) (fs : List Frame) :
    ∀ (s : State) (op : Held) (f : Frame), s.held = some op → op.frames = f :: fs →
      s.env.turns = List.replicate (fs.length + 1) (.host a) ++ rest →
      Sys2Proof.core.run (fs.length + 1) s =
        Host.Outcome.next (σ := State) ((s.beginTurn rest a).completeSend op.queue (f :: fs) op.reply) := by
  induction fs with
  | nil =>
    intro s op f hh hf ht
    exact run_step 0 s _ (step_held_last ht hh hf ha)
  | cons g fs ih =>
    intro s op f hh hf ht
    have first := step_held_more (rest := List.replicate (fs.length + 1) (.host a) ++ rest) ht hh hf ha
    rw [List.length_cons, run_step _ s _ first, ih _ { op with frames := g :: fs } g rfl rfl rfl]
    exact congrArg Host.Outcome.next
      (State.completeSend_continueSend (s.beginTurn rest a) { op with frames := g :: fs } f (g :: fs) op.reply)

/-- Two states whose next steps are the same have the same runs. -/
theorem run_congr_step {s t : State} (n : Nat) (h : step s = step t) :
    Sys2Proof.core.run (n + 1) s = Sys2Proof.core.run (n + 1) t := by
  have same : Sys2Proof.core.step s = Sys2Proof.core.step t := h
  simp only [Host.Core.run, same]

/-- What holds the port once a SEND_DATA on `d` with payload `p` has begun: every segment, framed (R212, R213). -/
def State.sendDataHeld (s : State) (d : Dlci) (cr : Bool) (p : List Byte) : Held :=
  { queue := dataQueue d
    frames := (segments p (s.chan d).mtu.toNat).map (encodeData d cr (s.chan d).mode)
    reply := { status := .ok, data := .accepted p.length } }

/-- The host operation at the head of the list is taken, with its payload, and `op` holds the port for it. -/
def State.takePort (s : State) (op : Held) (p : List Byte) (ops : List HostCmd) : State :=
  { s with held := some op, env := { s.env with hostOps := ops, payload := p } }

/-- R210, R212: the turn that issues a SEND_DATA on the free port does what a turn of the send does that already holds the
port (log 13). -/
theorem step_issue_sendData {s : State} {w : HostWord} {p : List Byte} {ops : List HostCmd} {d : Dlci} {cr : Bool}
    (ht : s.env.turns = .host a :: rest) (hh : s.held = none) (ho : s.env.hostOps = { word := w, payload := p } :: ops)
    (hw : decodeHost w = .sendData d cr) (hm : (s.chan d).mtu ≠ 0) :
    step s = step (s.takePort (s.sendDataHeld d cr p) p ops) := by
  rw [step_held (s := s.takePort _ p ops) ht rfl, step_host s a rest ht,
    hostStep_issue (s.beginTurn rest a) { word := w, payload := p } ops hh ho, issueHostOp, hw]
  exact if_neg hm

end RunOfASend

/-- Settles O40: the issuing turn is the first of the turns of `run_held_accepted`, which sends every frame. -/
theorem sendDataSendsEverySegmentInOrder : Obligations.SendDataSendsEverySegmentInOrder := by
  intro s w p ops d cr a rest hh ho hw hm ha frames ht
  obtain ⟨f, fs, hframes⟩ : ∃ f fs, frames = f :: fs := by
    have hpos : 1 ≤ (s.chan d).mtu.toNat := Nat.pos_of_ne_zero fun h0 => hm (BitVec.eq_of_toNat_eq h0)
    exact List.exists_cons_of_ne_nil (by simpa [frames] using segments_ne_nil p _ hpos)
  have queue_hi : dataQueue d = .hi ↔ d = 0 := by simp [dataQueue]
  rw [hframes] at ht ⊢
  have sent := run_held_accepted ha fs (s.takePort (s.sendDataHeld d cr p) p ops) _ f rfl hframes ht
  rw [List.length_cons, run_congr_step fs.length (step_issue_sendData ht hh ho hw hm), sent]
  simp only [State.completeSend, Outputs.accept, State.sendDataHeld, queue_hi, ← hh]
  rfl

end Sys2Proof.Machine

/-! ## Payload bytes and their delivery (20_memory.md R62, R64; 42_rx_fsm.md R168, R170) -/

namespace Sys2Proof.Machine

/-- What the buffer reads as after a write. -/
theorem Memory.read_write (m : Memory) (i j : Nat) (b : Byte) (hm : Memory.wf m) :
    (m.write i b).read j = if j = i then b else m.read j := by
  split
  case isTrue hj => rw [hj, Memory.read_write_same m i b hm]
  case isFalse hj => rw [Memory.read_write_other m i j b (Ne.symm hj)]

/-- R167, R168: a DATA step counts its byte, and goes on to FCS_CHECK after the last one. -/
theorem rxCount_data {s : State} (hr : s.rx.rxState = .data) :
    rxCount s = { s with rx := { s.rx with
      cnt := s.rx.cnt + 1
      rxState := if s.rx.cnt + 1 = s.rx.size then .fcsCheck else .data } } := by
  simp [rxCount, hr]

/-- Settles O29: the buffer is the old one written at `cnt`, and reads as `Memory.read_write` says. -/
theorem payloadByteOfAKeptFrame : Obligations.PayloadByteOfAKeptFrame := by
  intro s b a rest ht hm hr hq hc hbuf
  refine ⟨s.rx.buf.write s.rx.cnt.toNat b, Memory.write_wf _ _ _ hbuf, fun i => Memory.read_write _ _ i b hbuf, ?_⟩
  calc step s
    _ = rxStep b (s.beginTurn rest a) := step_rx s b a rest ht
    _ = rxData b (s.beginTurn rest a) := rxStep_data b hm hr
    _ = .next (rxCount _) := rxData_kept (s.beginTurn rest a) b hq hc
    _ = _ := congrArg Host.Outcome.next (rxCount_data hr)

/-- R170, log 11: outside CMD a data frame's instruction delivers the frame it opened. -/
theorem exec_data_close {i : Instr} {pf : Bool} {s : State} (hi : i = .ui pf ∨ i = .uih pf) (hr : s.rx.rxState ≠ .cmd) :
    exec i s = s.deliver := by
  rcases hi with rfl | rfl
  · exact exec_ui_close s pf hr
  · exact exec_uih_close s pf hr

/-- R170: DLCI 0 is always addressed, a data channel only while it is connected. -/
theorem deliverable_iff (d : Dlci) (c : Channel) : deliverable d c = true ↔ d = 0 ∨ c.connected = true := by
  simp [deliverable]

/-- Settles O32, by the three cases of a delivery. -/
theorem dataFrameIsDelivered : Obligations.DataFrameIsDelivered := by
  intro i pf s hi hr d size k rx1
  rw [exec_data_close hi (by simp [hr])]
  refine ⟨fun hq => ?discard, fun h hq hd => ?unconnected, fun h hq hd hk => ?push⟩
  case discard => exact s.deliver_none hq
  case unconnected => exact s.deliver_unconnected h hq (Bool.eq_false_of_not_eq_true (mt (deliverable_iff _ _).mp hd))
  case push =>
    rw [s.deliver_push h hq ((deliverable_iff _ _).mpr hd), State.pushPayload_eq]
    exact if_neg (Nat.not_lt.mpr hk)

end Sys2Proof.Machine

/-! ## RX steps while a send holds the port (20_memory.md R65; 44_host_ops.md R213; 60_exceptions.md R249) -/

namespace Sys2Proof.Machine

/-- The same state with another holder of the host port. -/
def State.withHeld (s : State) (h : Option Held) : State := { s with held := h }

/-- The same outcome with another holder of the host port in its next state. -/
def heldResult (h : Option Held) : Result → Result
  | .next t => .next (t.withHeld h)
  | .fault r => .fault r
  | .refused r => .refused r

section WithHeld

variable (s : State) (h : Option Held)

@[simp] theorem State.withHeld_muxEn : (s.withHeld h).muxEn = s.muxEn := rfl
@[simp] theorem State.withHeld_rx : (s.withHeld h).rx = s.rx := rfl

/-! ### Each operation of an RX step neither reads nor writes what holds the port -/

theorem rxAddress_withHeld (b : Byte) : rxAddress b (s.withHeld h) = (rxAddress b s).withHeld h := by
  unfold rxAddress
  split <;> rfl

theorem rxLen_withHeld (b : Byte) : rxLen b (s.withHeld h) = (rxLen b s).withHeld h := by
  unfold rxLen
  split <;> rfl

theorem rxData_withHeld (b : Byte) : rxData b (s.withHeld h) = heldResult h (rxData b s) := by
  by_cases hq : s.rx.q = none
  · rw [rxData_discarded b hq, rxData_discarded (s := s.withHeld h) b hq]
    rfl
  · by_cases hc : s.rx.cnt.toNat < s.cfg.scratchCap
    · rw [rxData_kept s b hq hc, rxData_kept (s.withHeld h) b hq hc]
      rfl
    · rw [rxData_full b hq (Nat.not_lt.mp hc), rxData_full (s := s.withHeld h) b hq (Nat.not_lt.mp hc)]
      rfl

theorem State.pushPayload_withHeld (q : Handle) : (s.withHeld h).pushPayload q = heldResult h (s.pushPayload q) := by
  rw [State.pushPayload_eq, State.pushPayload_eq, apply_ite (heldResult h)]
  rfl

theorem State.deliver_withHeld : (s.withHeld h).deliver = heldResult h s.deliver := by
  cases hq : s.rx.q with
  | none =>
    rw [s.deliver_none hq, (s.withHeld h).deliver_none hq]
    rfl
  | some q =>
    cases hd : deliverable (addrDlci s.rx.addr) (s.chan (addrDlci s.rx.addr)) with
    | false =>
      rw [s.deliver_unconnected q hq hd, (s.withHeld h).deliver_unconnected q hq hd]
      rfl
    | true =>
      rw [s.deliver_push q hq hd, (s.withHeld h).deliver_push q hq hd]
      exact State.pushPayload_withHeld (s.setRxState .waitingAddress) h q

theorem State.replyFrame_withHeld (d : Dlci) (cr : Bool) (c2 : Byte) :
    (s.withHeld h).replyFrame d cr c2 = (s.replyFrame d cr c2).withHeld h := by
  unfold State.replyFrame
  rw [apply_ite (State.withHeld · h)]
  rfl

theorem discAnswer_withHeld (dc : BitVec 7) : discAnswer dc (s.withHeld h) = (discAnswer dc s).withHeld h := by
  unfold discAnswer
  rw [apply_ite (State.withHeld · h), ← State.replyFrame_withHeld, ← State.replyFrame_withHeld]
  rfl

theorem discAction_withHeld (dc : BitVec 7) : discAction dc (s.withHeld h) = (discAction dc s).withHeld h := by
  rw [discAction_eq, discAction_eq, discAnswer_withHeld, apply_ite (State.withHeld · h)]
  rfl

theorem managerAction_withHeld (c : Byte) (dc : BitVec 7) :
    managerAction c dc (s.withHeld h) = (managerAction c dc s).withHeld h := by
  rcases managerAction_cases c with ⟨_, hc⟩ | ⟨_, hc⟩ | hc | hc | hc <;> rw [hc]
  · exact State.replyFrame_withHeld (s.setConnected (dcDlci dc) true) h _ _ _
  · exact discAction_withHeld s h dc
  all_goals rfl

/-- At the closing flag, by what the control byte opened: a delivery or a manager's action. -/
theorem exec_close_withHeld (c : Byte) (hr : s.rx.rxState ≠ .cmd) :
    exec (decodeCtrl c) (s.withHeld h) = heldResult h (exec (decodeCtrl c) s) := by
  rw [exec_decodeCtrl_close s c hr, exec_decodeCtrl_close (s.withHeld h) c hr]
  split
  · exact State.deliver_withHeld s h
  · exact congrArg (fun t : State => Host.Outcome.next (t.setRxState .waitingAddress)) (managerAction_withHeld s h c _)

theorem rxFlag_withHeld (b : Byte) (hr : s.rx.rxState = .flagExpected) :
    rxFlag b (s.withHeld h) = heldResult h (rxFlag b s) := by
  unfold rxFlag
  rw [apply_ite (heldResult h), apply_ite (heldResult h), ← exec_close_withHeld s h _ (by simp [hr])]
  rfl

/-- R213, R249: an RX step does the same whatever holds the port, by the state it finds the FSM in. -/
theorem rxStep_withHeld (b : Byte) : rxStep b (s.withHeld h) = heldResult h (rxStep b s) := by
  unfold rxStep
  rw [State.withHeld_muxEn, State.withHeld_rx]
  split
  · cases hr : s.rx.rxState with
    | waitingAddress => exact congrArg Host.Outcome.next (rxAddress_withHeld s h b)
    | cmd =>
      dsimp only
      rw [exec_decodeCtrl_cmd s b hr, exec_decodeCtrl_cmd (s.withHeld h) b hr]
      rfl
    | len => exact congrArg Host.Outcome.next (rxLen_withHeld s h b)
    | lenExt => rfl
    | data => exact rxData_withHeld s h b
    | fcsCheck => rfl
    | flagExpected => exact rxFlag_withHeld s h b hr
    | unused7 => rfl
  · rfl

end WithHeld

/-- Settles O42, by `rxStep_withHeld`. -/
theorem rxStepsGoOnWhileASendHolds : Obligations.RxStepsGoOnWhileASendHolds := by
  intro s b a rest h ht
  rw [step_rx s b a rest ht]
  exact (step_rx (s.withHeld h) b a rest ht).trans (rxStep_withHeld (s.beginTurn rest a) h b)

end Sys2Proof.Machine

/-! ## Outputs only grow at their end (20_memory.md R66, R70, R71; 70_reset_and_hazards.md R271) -/

namespace Sys2Proof.Machine

/-- Everything put out in `o` stands in `o'` in the same order, and what is new comes after it. -/
structure Outputs.GrowsTo (o o' : Outputs) : Prop where
  txHi : o.txHi <+: o'.txHi
  txLo : o.txLo <+: o'.txLo
  pushed : o.pushed <+: o'.pushed
  rawOut : o.rawOut <+: o'.rawOut
  replies : o.replies <+: o'.replies
  events : o.events <+: o'.events

section Growth

variable {s t : State}

theorem Outputs.GrowsTo.trans {o o' o'' : Outputs} (h : o.GrowsTo o') (h' : o'.GrowsTo o'') : o.GrowsTo o'' :=
  ⟨h.txHi.trans h'.txHi, h.txLo.trans h'.txLo, h.pushed.trans h'.pushed, h.rawOut.trans h'.rawOut,
    h.replies.trans h'.replies, h.events.trans h'.events⟩

theorem Outputs.GrowsTo.of_eq {o o' : Outputs} (h : o' = o) : o.GrowsTo o' := by
  subst h
  constructor <;> simp

/-! ### The operations that put something out -/

theorem emitRaw_grows (s : State) (b : Byte) : s.out.GrowsTo (s.emitRaw b).out := by
  constructor <;> simp [State.emitRaw]

theorem logEvent_grows (s : State) (e : Event) : s.out.GrowsTo (s.logEvent e).out := by
  constructor <;> simp [State.logEvent]

theorem reply_grows (s : State) (r : HostReply) : s.out.GrowsTo (s.reply r).out := by
  constructor <;> simp [State.reply]

theorem enqueue_grows (s : State) (q : TxQueue) (f : Frame) : s.out.GrowsTo (s.enqueue q f).out := by
  cases q <;> constructor <;> simp

theorem replyFrame_grows (s : State) (d : Dlci) (cr : Bool) (c2 : Byte) : s.out.GrowsTo (s.replyFrame d cr c2).out := by
  rcases s.replyFrame_cases d cr c2 with ⟨_, h⟩ | ⟨_, h⟩ <;> rw [h]
  · exact enqueue_grows s .hi _
  · exact logEvent_grows s .replyDrop

theorem deliver_grows (h : s.deliver = .next t) : s.out.GrowsTo t.out := by
  rcases s.deliver_cases t h with ⟨_, rfl⟩ | ⟨_, _, _, rfl⟩ | ⟨_, _, _, _, rfl⟩
  · exact logEvent_grows (s.setRxState .waitingAddress) .discard
  · exact logEvent_grows (s.setRxState .waitingAddress) .unconnected
  · constructor
    case events => dsimp only; split <;> simp
    all_goals simp

theorem discAction_grows (s : State) (dc : BitVec 7) : s.out.GrowsTo (discAction dc s).out := by
  have answer : s.out.GrowsTo (discAnswer dc s).out := by
    unfold discAnswer
    split
    · exact replyFrame_grows (s.setConnected (dcDlci dc) false) _ _ _
    · exact replyFrame_grows s _ _ _
  rw [discAction_eq]
  split <;> exact answer

theorem managerAction_grows (s : State) (c : Byte) (dc : BitVec 7) : s.out.GrowsTo (managerAction c dc s).out := by
  rcases managerAction_cases c with ⟨_, h⟩ | ⟨_, h⟩ | h | h | h <;> rw [h]
  · exact replyFrame_grows (s.setConnected (dcDlci dc) true) _ _ _
  · exact discAction_grows s dc
  · exact .of_eq rfl
  · exact .of_eq rfl
  · exact logEvent_grows s .otherCmd

theorem offerNext_grows (s : State) : s.out.GrowsTo s.offerNext.out := by
  rcases s.offerNext_cases with ⟨_, h⟩ | ⟨op, _, _, h⟩ | ⟨_, _, _, _, _, _, h⟩ | ⟨op, f, _, _, _, h⟩ |
    ⟨op, f, g, fs, _, _, _, h⟩ <;> rw [h]
  · exact .of_eq rfl
  · exact reply_grows { s with held := none } op.reply
  · exact .of_eq rfl
  · exact (enqueue_grows { s with held := none } op.queue f).trans (reply_grows _ op.reply)
  · exact enqueue_grows { s with held := some { op with frames := g :: fs } } op.queue f

/-! ### The turns -/

theorem RxEffect.grows {b : Byte} (h : RxEffect b s t) : s.out.GrowsTo t.out := by
  cases h with
  | raw => exact emitRaw_grows s b
  | decoder h => exact .of_eq (by rw [h])
  | discard e => exact logEvent_grows (s.setRxState .waitingAddress) e
  | deliver h => exact deliver_grows h
  | manage => exact managerAction_grows s _ _

theorem HostEffect.grows {i : Instr} (h : HostEffect s i t) : s.out.GrowsTo t.out := by
  cases h with
  | send q fs r => exact offerNext_grows { s with held := some { queue := q, frames := fs, reply := r } }
  | answer r => exact reply_grows s r
  | cfgChan d m mtu => exact reply_grows (s.setFormat d m mtu) _
  | bindQueue d bind q => exact reply_grows (s.setQueue d (if bind then some q else none)) _
  | setConn d v => exact reply_grows (s.setConnected d v) _
  | ackDisc0 => exact reply_grows { s with disc0Pending := false } _
  | setMuxEn en =>
    rw [State.hostOk_out]
    split <;> exact reply_grows s _

theorem hostStep_grows (h : hostStep s = .next t) : s.out.GrowsTo t.out := by
  rcases hostStep_effect h with ⟨_, rfl⟩ | rfl | ⟨op, rest, _, _, effect⟩
  · exact offerNext_grows s
  · exact .of_eq rfl
  · exact effect.grows

end Growth

/-- Settles O56, turn by turn: `RxEffect.grows`, `hostStep_grows`, and a reset, which keeps the outputs. -/
theorem outputsOnlyGrow : Obligations.OutputsOnlyGrow := by
  intro s t h
  have grows : s.out.GrowsTo t.out := by
    rcases step_cases s t h with ⟨_, rfl⟩ | ⟨b, a, rest, _, h⟩ | ⟨a, rest, _, h⟩ | ⟨rest, _, rfl⟩
    · exact .of_eq rfl
    · exact (rxStep_effect h).grows
    · exact hostStep_grows (s := s.beginTurn rest a) h
    · exact .of_eq rfl
  obtain ⟨txHi, txLo, pushed, rawOut, replies, events⟩ := grows
  exact ⟨txHi, txLo, pushed, rawOut, replies, events⟩

end Sys2Proof.Machine

/-! ## Control bytes and host words: the decoder inverts the encoder (30_encoding.md R82, R83, R90-R93, R96) -/

namespace Sys2Proof

/-! ### The two fields of a control byte -/

/-- R83: masking P/F out of a control byte leaves its type. -/
theorem ftype_ctrlByte (t : Byte) (pf : Bool) (ht : t &&& 0x10#8 = 0#8) : ftype (ctrlByte t pf) = t :=
  Laws.EncodedOpcode.ctrlByte_type t pf ht

/-- R82: bit 4 of a control byte is its P/F bit. -/
theorem pfBit_ctrlByte (t : Byte) (pf : Bool) (ht : t &&& 0x10#8 = 0#8) : pfBit (ctrlByte t pf) = pf := by
  have hbit : t.getLsbD 4 = false := by simpa using congrArg (·.getLsbD 4) ht
  cases pf <;> simp_all [pfBit, ctrlByte]

/-- R83: a control byte assembled from a type and a P/F bit decodes by that type, with that bit as operand. -/
theorem decodeCtrl_ctrlByte (t : Byte) (pf : Bool) (ht : t &&& 0x10#8 = 0#8) : decodeCtrl (ctrlByte t pf) =
    if t = typeUI then .ui pf
    else if t = typeUIH then .uih pf
    else if t = typeSABM then .sabm pf
    else if t = typeUA then .ua pf
    else if t = typeDM then .dm pf
    else if t = typeDISC then .disc pf
    else .other (ctrlByte t pf) := by
  simp only [decodeCtrl, ftype_ctrlByte t pf ht, pfBit_ctrlByte t pf ht]

/-- R83, R96: a byte whose type no row names is an OTHER byte. -/
theorem decodeCtrl_of_namesNoFrameType {c : Byte} (h : namesNoFrameType c = true) : decodeCtrl c = .other c := by
  simp only [namesNoFrameType, Bool.and_eq_true, bne_iff_ne] at h
  obtain ⟨⟨⟨⟨⟨ui, uih⟩, sabm⟩, ua⟩, dm⟩, disc⟩ := h
  exact (if_neg ui).trans <| (if_neg uih).trans <| (if_neg sabm).trans <| (if_neg ua).trans <|
    (if_neg dm).trans (if_neg disc)

/-! ### The fields of a host word -/

section HostWordFields

variable (op : BitVec 4) (d : Dlci) (cr b : Bool) (arg : BitVec 16)

/-- R90: the bits of an assembled host word, field by field from bit 0 up. -/
theorem getLsbD_hostWord (i : Nat) : (hostWord op d cr b arg).getLsbD i =
    if i < 16 then arg.getLsbD i
    else if i < 20 then false
    else if i = 20 then b
    else if i = 21 then cr
    else if i < 28 then d.getLsbD (i - 22)
    else op.getLsbD (i - 28) := by
  simp only [hostWord, BitVec.getLsbD_append, BitVec.getLsbD_ofBool]
  grind

@[simp] theorem hostOp_hostWord : hostOp (hostWord op d cr b arg) = op := by
  ext i hi
  simp only [hostOp, BitVec.getElem_extractLsb', getLsbD_hostWord]
  grind

@[simp] theorem hostDlci_hostWord : hostDlci (hostWord op d cr b arg) = d := by
  ext i hi
  simp only [hostDlci, BitVec.getElem_extractLsb', getLsbD_hostWord]
  grind

@[simp] theorem hostCr_hostWord : hostCr (hostWord op d cr b arg) = cr :=
  getLsbD_hostWord op d cr b arg 21

@[simp] theorem hostB_hostWord : hostB (hostWord op d cr b arg) = b :=
  getLsbD_hostWord op d cr b arg 20

@[simp] theorem hostArg_hostWord : hostArg (hostWord op d cr b arg) = arg := by
  ext i hi
  simp [hostArg, getLsbD_hostWord, hi]

end HostWordFields

@[simp] theorem modeOfBit_toBit (m : Mode) : modeOfBit m.toBit = m := by cases m <;> rfl

/-! ### Decoding what the encoder writes -/

/-- A frame instruction: its control byte decodes by its type, and no row names the type of a well-formed OTHER byte. -/
theorem decode_encode_frame {i : Instr} (hi : Safety.isHostInstr i = false) (hwf : i.wf = true) :
    decode (encode i) = i := by
  cases i with
  | ui pf => exact decodeCtrl_ctrlByte typeUI pf (by decide)
  | uih pf => exact decodeCtrl_ctrlByte typeUIH pf (by decide)
  | sabm pf => exact decodeCtrl_ctrlByte typeSABM pf (by decide)
  | ua pf => exact decodeCtrl_ctrlByte typeUA pf (by decide)
  | dm pf => exact decodeCtrl_ctrlByte typeDM pf (by decide)
  | disc pf => exact decodeCtrl_ctrlByte typeDISC pf (by decide)
  | other c => exact decodeCtrl_of_namesNoFrameType hwf
  | _ => exact nomatch hi

/-- A host operation: its op code selects it, and each of its fields reads back. -/
theorem decode_encode_host {i : Instr} (hi : Safety.isHostInstr i = true) : decode (encode i) = i := by
  cases i with
  | ui | uih | sabm | ua | dm | disc | other => exact nomatch hi
  | sendCmd d cr c => simp [decode, encode, decodeHost, BitVec.extractLsb'_setWidth_of_le]
  | _ => simp [decode, encode, decodeHost]

/-- Settles O1, by opcode space. -/
theorem decodeOfEncodeIsIdentity : Obligations.DecodeOfEncodeIsIdentity := by
  intro i hwf
  cases hi : Safety.isHostInstr i with
  | false => exact decode_encode_frame hi hwf
  | true => exact decode_encode_host hi

/-! ### The bits of a host word that its operation does not use -/

section UnusedHostBits

open Safety

variable (w : HostWord) {m : HostWord}

/-- A field that lies inside the mask is left alone by masking. -/
theorem extractLsb'_and_mask {start len : Nat} (hm : m.extractLsb' start len = BitVec.allOnes len) :
    (w &&& m).extractLsb' start len = w.extractLsb' start len := by
  rw [BitVec.extractLsb'_and, hm, BitVec.and_allOnes]

theorem hostOp_and_mask (hm : hostOp m = BitVec.allOnes 4) : hostOp (w &&& m) = hostOp w :=
  extractLsb'_and_mask w hm

theorem hostDlci_and_mask (hm : hostDlci m = BitVec.allOnes 6) : hostDlci (w &&& m) = hostDlci w :=
  extractLsb'_and_mask w hm

theorem hostCr_and_mask (hm : hostCr m = true) : hostCr (w &&& m) = hostCr w := by
  rw [hostCr, BitVec.getLsbD_and, ← hostCr, ← hostCr, hm, Bool.and_true]

theorem hostB_and_mask (hm : hostB m = true) : hostB (w &&& m) = hostB w := by
  rw [hostB, BitVec.getLsbD_and, ← hostB, ← hostB, hm, Bool.and_true]

theorem hostArg_and_mask (hm : hostArg m = BitVec.allOnes 16) : hostArg (w &&& m) = hostArg w :=
  extractLsb'_and_mask w hm

/-- The control byte of SEND_CMD is the low byte of the argument, so the low byte of the mask is enough. -/
theorem hostArg_low_and_mask (hm : (hostArg m).extractLsb' 0 8 = BitVec.allOnes 8) :
    (hostArg (w &&& m)).extractLsb' 0 8 = (hostArg w).extractLsb' 0 8 := by
  simp only [hostArg, BitVec.extractLsb'_and] at *
  rw [hm, BitVec.and_allOnes]

/-- `hostUsedBits` selects by the same op code as the decoder. -/
theorem toNat_shiftRight_op : (w >>> 28).toNat = (hostOp w).toNat := by
  simp only [hostOp, BitVec.toNat_ushiftRight, BitVec.extractLsb'_toNat]
  omega

/-- Every operation uses its op code. -/
theorem hostOp_hostUsedBits : hostOp (hostUsedBits w) = BitVec.allOnes 4 := by
  unfold hostUsedBits
  split <;> rfl

theorem hostUsedBits_congr {w v : HostWord} (h : hostOp w = hostOp v) : hostUsedBits w = hostUsedBits v := by
  simp only [hostUsedBits, toNat_shiftRight_op, h]

/-- R90, R93(e): clearing the bits an operation does not use changes nothing: at each op code the fields the decoder reads
lie inside the mask. -/
theorem decodeHost_and_hostUsedBits : decodeHost (w &&& hostUsedBits w) = decodeHost w := by
  have hop : hostOp (w &&& hostUsedBits w) = hostOp w := hostOp_and_mask w (hostOp_hostUsedBits w)
  unfold decodeHost
  rw [hop]
  split
  all_goals
    rename_i hk
    simp (disch := decide) [hostUsedBits, toNat_shiftRight_op, -BitVec.toNat_ushiftRight, hk, hostDlci_and_mask,
      hostCr_and_mask, hostB_and_mask, hostArg_and_mask, hostArg_low_and_mask]

end UnusedHostBits

/-- Settles O3: both words decode as their common used bits do. -/
theorem hostWordBitsNotUsedAreIgnored : Obligations.HostWordBitsNotUsedAreIgnored := by
  intro w v h
  have hop : hostOp w = hostOp v := by
    calc hostOp w
      _ = hostOp (w &&& Safety.hostUsedBits w) := (hostOp_and_mask w (hostOp_hostUsedBits w)).symm
      _ = hostOp (v &&& Safety.hostUsedBits w) := congrArg hostOp h
      _ = hostOp v := hostOp_and_mask v (hostOp_hostUsedBits w)
  calc decodeHost w
    _ = decodeHost (w &&& Safety.hostUsedBits w) := (decodeHost_and_hostUsedBits w).symm
    _ = decodeHost (v &&& Safety.hostUsedBits v) := by rw [h, hostUsedBits_congr hop]
    _ = decodeHost v := decodeHost_and_hostUsedBits v

/-! ### Every code is a well-formed instruction -/

/-- R83, R96: the encoder writes a decoded control byte back. -/
theorem encode_decodeCtrl (c : Byte) : encode (decodeCtrl c) = .ctrl c := by
  rcases decodeCtrl_cases c with ⟨hd, hc, _⟩ | ⟨hd, hc, _⟩ | ⟨hd, hc, _⟩ | ⟨hd, hc, _⟩ | ⟨hd, hc, _⟩ | ⟨hd, hc, _⟩ |
    ⟨hd, _⟩
  all_goals rw [hd, encode]
  all_goals rw [hc]

/-- R83, R96: only an OTHER byte has a condition, and it is decoded last. -/
theorem decodeCtrl_wf (c : Byte) : (decodeCtrl c).wf = true := by
  rcases decodeCtrl_cases c with ⟨hd, _⟩ | ⟨hd, _⟩ | ⟨hd, _⟩ | ⟨hd, _⟩ | ⟨hd, _⟩ | ⟨hd, _⟩ | ⟨hd, hnone, _⟩
  all_goals rw [hd, Instr.wf]
  exact hnone

/-- R90: every operand of a host operation is as wide as its field, so each is well-formed. -/
theorem wf_of_isHostInstr {i : Instr} (hi : Safety.isHostInstr i = true) : i.wf = true := by
  cases i with
  | other => exact nomatch hi
  | _ => rfl

/-- Settles O2: the if-chain is the decoder's own, with the types written out. -/
theorem everyCodeDecodesToAWellFormedInstruction : Obligations.EveryCodeDecodesToAWellFormedInstruction := by
  refine ⟨fun _ => rfl, encode_decodeCtrl, ?wellFormed⟩
  case wellFormed =>
    rintro (c | w)
    · exact decodeCtrl_wf c
    · exact wf_of_isHostInstr (isHostInstr_decodeHost w)

/-- Settles O4, by evaluating the decoder on each code. -/
theorem sampleCodesDecode : Obligations.SampleCodesDecode := by
  unfold Obligations.SampleCodesDecode
  decide

end Sys2Proof

/-! ## The address and length fields of a frame (30_encoding.md R81, R86, R89; 41_codec.md R140, R141) -/

namespace Sys2Proof.Machine

/-- R140: the bits of an encoded address: EA, CR and the DLCI above them. -/
theorem getLsbD_encAddr (d : Dlci) (cr : Bool) (i : Nat) :
    (encAddr d cr).getLsbD i = if i = 0 then true else if i = 1 then cr else d.getLsbD (i - 2) := by
  have hd : 8 ≤ i → d.getLsbD (i - 2) = false := fun hi => BitVec.getLsbD_of_ge _ _ (by omega)
  have hcr : (if cr then 0x02#8 else 0x00#8).getLsbD i = (decide (i = 1) && cr) := by
    cases cr with
    | false => simp
    | true => simp [show 0x02#8 = BitVec.twoPow 8 1 from rfl, eq_comm]
  have hea : (0x01#8).getLsbD i = decide (i = 0) := by simp [BitVec.getLsbD_one]
  simp only [encAddr, BitVec.getLsbD_or, BitVec.getLsbD_shiftLeft, BitVec.getLsbD_setWidth, hcr, hea]
  grind

theorem addrDlci_encAddr (d : Dlci) (cr : Bool) : addrDlci (encAddr d cr) = d := by
  ext i hi
  simp only [addrDlci, BitVec.getElem_extractLsb', getLsbD_encAddr]
  grind

theorem addrCr_encAddr (d : Dlci) (cr : Bool) : addrCr (encAddr d cr) = cr := getLsbD_encAddr d cr 1

theorem eaBit_encAddr (d : Dlci) (cr : Bool) : eaBit (encAddr d cr) = true := getLsbD_encAddr d cr 0

/-- Settles O8: the manager's operand carries what the address carries. -/
theorem addressByteCarriesDlciAndCr : Obligations.AddressByteCarriesDlciAndCr := by
  intro d cr
  have hd : addrDlci (encAddr d cr) = d := addrDlci_encAddr d cr
  have hcr : addrCr (encAddr d cr) = cr := addrCr_encAddr d cr
  exact ⟨hd, hcr, eaBit_encAddr d cr, (dcDlci_addrDc _).trans hd, (dcCr_addrDc _).trans hcr⟩

/-! ### Length bytes as numbers -/

/-- R86: EA is the parity of a length byte. -/
theorem eaBit_eq (b : Byte) : eaBit b = decide (b.toNat % 2 = 1) := Nat.testBit_zero b.toNat

/-- R86, R164: a first length byte carries its upper seven bits. -/
theorem toNat_lenFirst (b : Byte) : (lenFirst b).toNat = b.toNat / 2 := by
  simp only [lenFirst, BitVec.toNat_setWidth, BitVec.toNat_ushiftRight]
  omega

/-- R86, R165: a second length byte is placed above the seven bits of the first. -/
theorem toNat_lenSecond (size : Len15) (b : Byte) (hsize : size.toNat < 2 ^ 7) :
    (lenSecond size b).toNat = 128 * b.toNat + size.toNat := by
  have hplace : (b.zeroExtend 15 <<< 7).toNat = 2 ^ 7 * b.toNat := by
    simp only [BitVec.toNat_shiftLeft, BitVec.toNat_setWidth]
    omega
  rw [lenSecond, BitVec.toNat_or, hplace, Nat.or_comm, ← Nat.two_pow_add_eq_or_of_lt hsize]

/-- R141: a length of at most seven bits is one byte, with EA = 1. -/
theorem encLen_short {n : Nat} (h : n ≤ 127) : encLen n = [BitVec.ofNat 8 (2 * n + 1)] := by
  have hor : n <<< 1 ||| 1 = 2 * n + 1 := by
    rw [← Nat.shiftLeft_add_eq_or_of_lt (by decide), Nat.shiftLeft_eq, pow_one, mul_comm]
  rw [encLen, if_pos h, hor]

/-- R141: a longer length is its low seven bits, with EA = 0, and the rest. -/
theorem encLen_long {n : Nat} (h : 127 < n) :
    encLen n = [BitVec.ofNat 8 (2 * (n % 128)), BitVec.ofNat 8 (n / 128)] := by
  rw [encLen, if_neg (by omega), Nat.and_two_pow_sub_one_eq_mod n 7, Nat.shiftLeft_eq, Nat.shiftRight_eq_div_pow,
    pow_one, mul_comm]

/-- Settles O9: at most 127 is `(2n + 1) / 2`; above it, `128 * (n / 128) + n % 128`. -/
theorem lengthFieldRoundTrip : Obligations.LengthFieldRoundTrip := by
  intro n hn
  refine ⟨fun hshort => ⟨_, encLen_short hshort, ?shortEa, ?shortLength⟩,
    fun hlong => ⟨_, _, encLen_long hlong, ?longEa, ?longLength⟩⟩
  case shortEa =>
    rw [eaBit_eq, BitVec.toNat_ofNat, decide_eq_true_iff]
    omega
  case shortLength =>
    rw [toNat_lenFirst, BitVec.toNat_ofNat]
    omega
  case longEa =>
    rw [eaBit_eq, BitVec.toNat_ofNat, decide_eq_false_iff_not]
    omega
  case longLength =>
    have hlow : (lenFirst (BitVec.ofNat 8 (2 * (n % 128)))).toNat = n % 128 := by
      rw [toNat_lenFirst, BitVec.toNat_ofNat]
      omega
    rw [toNat_lenSecond _ _ (by omega), hlow, BitVec.toNat_ofNat]
    omega

end Sys2Proof.Machine

/-! ## The CRC engine (40_crc.md R120-R127) -/

namespace Sys2Proof.Machine

/-! ### The table -/

/-- R120: the entries are literals, so each of the 256 is compared with the generator's. -/
theorem crcT_eq_crcGenerate : ∀ i : Byte, crcT i = crcGenerate 8 i := by decide

/-- R120: a table of 256 entries without a repeated one has every byte. -/
theorem crcT_surjective : Function.Surjective crcT :=
  Finite.surjective_of_injective fun i j => crcT_injective i j

/-- Settles O5: injective is `crcT_injective`, and from it surjective. -/
theorem crcTableIsGeneratedAndBijective : Obligations.CrcTableIsGeneratedAndBijective :=
  ⟨crcT_eq_crcGenerate, crcT_surjective, crcT_injective⟩

/-! ### The check of a received FCS -/

/-- R126: only the index 0xFF has the residue as its entry. -/
theorem crcT_eq_crcResidue_iff (i : Byte) : crcT i = crcResidue ↔ i = 0xFF#8 := by
  rw [← crcT_ff]
  exact ⟨crcT_injective i 0xFF#8, congrArg crcT⟩

theorem xor_eq_ff_iff (f r : Byte) : f ^^^ r = 0xFF#8 ↔ r = ~~~f := by
  have hnot : f ^^^ ~~~f = 0xFF#8 := by
    calc f ^^^ ~~~f
      _ = f ^^^ f ^^^ BitVec.allOnes 8 := by rw [BitVec.xor_assoc, BitVec.xor_allOnes]
      _ = 0xFF#8 := by rw [BitVec.xor_self, BitVec.zero_xor]; rfl
  rw [← hnot, BitVec.xor_right_inj]

/-- R126: an update reaches the residue from an accumulator by its complement alone. -/
theorem upd_eq_crcResidue_iff (f r : Byte) : upd f r = crcResidue ↔ r = ~~~f :=
  (crcT_eq_crcResidue_iff _).trans (xor_eq_ff_iff f r)

/-- Settles O6: the accumulator after the sequence, complemented, is `crcCompute` of it. -/
theorem verifyAcceptsExactlyTheComputedFcs : Obligations.VerifyAcceptsExactlyTheComputedFcs := by
  intro x r
  rw [crcVerify, beq_iff_eq]
  exact upd_eq_crcResidue_iff (crcFold crcSeed x) r

/-! ### A change of one bit -/

/-- R127: a one-bit change of the sequence changes the accumulator at its end. -/
theorem crcFold_flipAt_ne (s : Byte) (x : List Byte) {i j : Nat} (hi : i < x.length) (hj : j < 8) :
    crcFold s (flipAt x i j) ≠ crcFold s x := by
  intro h
  have hsplit : crcFold s x = crcFold (crcFold s (x.take i)) (x.drop i) := by
    rw [← crcFold_append, List.take_append_drop]
  rw [crcFold_flipAt x s i j hi, hsplit] at h
  exact flipBit_ne _ hj (crcFold_injective _ _ _ h)

/-- Settles O7: complementing keeps the accumulators of `crcFold_flipAt_ne` apart, and the one byte that verifies is not
its own change. -/
theorem singleBitChangesAreDetected : Obligations.SingleBitChangesAreDetected := by
  refine ⟨?coveredByte, ?fcsByte⟩
  case coveredByte =>
    intro x i j hi hj h
    exact crcFold_flipAt_ne crcSeed x hi hj (BitVec.not_inj.mp h)
  case fcsByte =>
    intro x r j hj hgood
    have hr : r = crcCompute x := (verifyAcceptsExactlyTheComputedFcs x r).mp hgood
    rw [Bool.eq_false_iff]
    intro hflip
    have hf : flipBit r j = crcCompute x := (verifyAcceptsExactlyTheComputedFcs x _).mp hflip
    exact flipBit_ne r hj (hf.trans hr.symm)

end Sys2Proof.Machine

/-! ## Frames and segments (41_codec.md R142, R143, R146) -/

namespace Sys2Proof.Machine

/-- Settles O10: a command frame is its literal, and a data frame its parts joined, the FCS over the payload for UI only. -/
theorem frameLayouts : Obligations.FrameLayouts := by
  refine ⟨fun d cr c => rfl, fun d cr p => ⟨?ui, ?uih⟩⟩
  case ui => rfl
  case uih => simp [encodeData, dataHeader, dataCovered, dataCtrl, typeUIH, FLAG]

section Segments

variable {p : List Byte} {mtu : Nat}

/-- R146: a payload of at most `mtu` bytes is one segment, the empty one too. -/
theorem segments_of_le (hmtu : 1 ≤ mtu) (h : p.length ≤ mtu) : segments p mtu = [p] := by
  unfold segments
  split
  case isTrue h0 => rw [List.length_eq_zero_iff.mp h0]
  case isFalse h0 =>
    have one : (p.length + mtu - 1) / mtu = 1 := Nat.div_eq_of_lt_le (by omega) (by omega)
    simp [one, List.take_of_length_le h]

/-- R146: a longer payload is its first `mtu` bytes and the segments of the others. -/
theorem segments_of_lt (hmtu : 1 ≤ mtu) (h : mtu < p.length) :
    segments p mtu = p.take mtu :: segments (p.drop mtu) mtu := by
  have more : (p.length + mtu - 1) / mtu = (p.length - mtu + mtu - 1) / mtu + 1 := by
    rw [← Nat.add_div_right _ hmtu]
    congr 1
    omega
  have slice (i : Nat) : (p.drop ((i + 1) * mtu)).take mtu = ((p.drop mtu).drop (i * mtu)).take mtu := by
    rw [List.drop_drop, Nat.succ_mul, Nat.add_comm]
  rw [segments, segments, if_neg (by omega), if_neg (by simp; omega), List.length_drop, more, List.range_succ_eq_map]
  simp [slice]

/-- What holds of a one-segment payload, and of a payload when it holds of what the first segment leaves, holds of every
payload and its segments. -/
theorem segments_induction {motive : List Byte → List (List Byte) → Prop} (hmtu : 1 ≤ mtu)
    (one : ∀ p, p.length ≤ mtu → motive p [p])
    (cut : ∀ p, mtu < p.length → motive (p.drop mtu) (segments (p.drop mtu) mtu) →
      motive p (p.take mtu :: segments (p.drop mtu) mtu)) (p : List Byte) : motive p (segments p mtu) := by
  by_cases h : p.length ≤ mtu
  · rw [segments_of_le hmtu h]
    exact one p h
  · rw [segments_of_lt hmtu (Nat.lt_of_not_le h)]
    exact cut p (Nat.lt_of_not_le h) (segments_induction hmtu one cut (p.drop mtu))
termination_by p.length
decreasing_by simp; omega

theorem segments_flatten (hmtu : 1 ≤ mtu) (p : List Byte) : (segments p mtu).flatten = p := by
  induction p using segments_induction hmtu with
  | one p _ => exact List.append_nil p
  | cut p _ ih => rw [List.flatten_cons, ih, List.take_append_drop]

/-- R146: all segments but the last are full. -/
theorem segments_dropLast_length (hmtu : 1 ≤ mtu) (p : List Byte) :
    ∀ seg ∈ (segments p mtu).dropLast, seg.length = mtu := by
  induction p using segments_induction hmtu with
  | one p _ => nofun
  | cut p h ih =>
    rw [List.dropLast_cons_of_ne_nil (segments_ne_nil _ mtu hmtu), List.forall_mem_cons]
    exact ⟨List.length_take_of_le h.le, ih⟩

/-- R146: the last segment of a payload that is not empty has a byte, and at most `mtu` of them. -/
theorem segments_getLast_length (hmtu : 1 ≤ mtu) (p : List Byte) :
    p ≠ [] → ∃ seg, (segments p mtu).getLast? = some seg ∧ 1 ≤ seg.length ∧ seg.length ≤ mtu := by
  induction p using segments_induction hmtu with
  | one p h => exact fun hp => ⟨p, rfl, List.length_pos_iff.mpr hp, h⟩
  | cut p h ih =>
    obtain ⟨seg, hseg, hlen⟩ := ih (mt List.drop_eq_nil_iff.mp (Nat.not_le.mpr h))
    exact fun _ => ⟨seg, by rw [List.getLast?_cons, hseg]; rfl, hlen⟩

end Segments

/-- Settles O11: joined, `segments_flatten`; full but for the last, `segments_dropLast_length` and
`segments_getLast_length`. -/
theorem segmentsCutThePayload : Obligations.SegmentsCutThePayload := by
  intro p mtu hmtu
  refine ⟨segments_flatten hmtu p, segments_dropLast_length hmtu p, fun hp => ?empty, segments_getLast_length hmtu p⟩
  case empty =>
    rw [hp]
    exact segments_of_le hmtu (Nat.zero_le mtu)

end Sys2Proof.Machine

/-! ## The first offer of SEND_DATA (44_host_ops.md R212, R213) -/

namespace Sys2Proof.Machine

section StartSend

variable {s : State} {q : TxQueue} {f : Frame} {fs : List Frame} {r : HostReply}

/-- R213: a send whose first offer is refused holds the port with all its frames. -/
theorem State.startSend_refused (ha : s.env.answers.txAccept = false) :
    s.startSend q (f :: fs) r = { s with held := some { queue := q, frames := f :: fs, reply := r } } :=
  State.offerNext_refused rfl rfl ha

/-- R210, R213: a send whose first offer is accepted holds the port with the other frames, or returns if there are none. -/
theorem State.startSend_accepted (ha : s.env.answers.txAccept = true) :
    s.startSend q (f :: fs) r = { s with
      held := if fs = [] then none else some { queue := q, frames := fs, reply := r }
      out := { s.out.accept q [f] with replies := if fs = [] then s.out.replies ++ [r] else s.out.replies } } := by
  cases fs with
  | nil => exact State.offerNext_last (op := ⟨q, [f], r⟩) rfl rfl ha
  | cons g fs => exact State.offerNext_more (op := ⟨q, f :: g :: fs, r⟩) rfl rfl ha

end StartSend

/-- R91: op code 2 is SEND_DATA. -/
theorem decodeHost_sendData {w : HostWord} (h : hostOp w = 0x2#4) : decodeHost w = .sendData (hostDlci w) (hostCr w) := by
  simp [decodeHost, h]

section SendData

variable {s : State} {d : Dlci} (cr : Bool)

/-- R212: a channel with MTU 0 sends nothing. -/
theorem exec_sendData_notReady (hm : (s.chan d).mtu = 0) : exec (.sendData d cr) s = .next (s.hostError .notReady) :=
  if_pos hm

/-- R212: on any other the segments of the payload, framed, are sent. -/
theorem exec_sendData_start (hm : (s.chan d).mtu ≠ 0) : exec (.sendData d cr) s =
    .next (s.startSend (dataQueue d) ((segments s.env.payload (s.chan d).mtu.toNat).map (encodeData d cr (s.chan d).mode))
      { status := .ok, data := .accepted s.env.payload.length }) :=
  if_neg hm

/-- R146, R212: there is a first frame to offer. -/
theorem exists_first_frame (hm : (s.chan d).mtu ≠ 0) (p : List Byte) :
    ∃ f fs, (segments p (s.chan d).mtu.toNat).map (encodeData d cr (s.chan d).mode) = f :: fs := by
  have hpos : 1 ≤ (s.chan d).mtu.toNat := Nat.pos_of_ne_zero fun h0 => hm (BitVec.eq_of_toNat_eq h0)
  exact List.exists_cons_of_ne_nil (by simpa using segments_ne_nil p _ hpos)

end SendData

/-- Settles O39: the instruction starts its send, whose first offer is refused or accepted. -/
theorem sendDataOffersItsFirstFrame : Obligations.SendDataOffersItsFirstFrame := by
  refine ⟨fun w => decodeHost_sendData, fun d cr s => ⟨exec_sendData_notReady cr, ?_⟩⟩
  intro hm q r
  obtain ⟨f, fs, hframes⟩ := exists_first_frame cr hm s.env.payload
  have start : exec (.sendData d cr) s = .next (s.startSend (dataQueue d) (f :: fs) r) := by
    rw [exec_sendData_start cr hm, hframes]
  refine ⟨f, fs, hframes, fun ha => ?refused, fun ha => ?accepted⟩
  case refused => exact start.trans (congrArg Host.Outcome.next (State.startSend_refused ha))
  case accepted =>
    have queue_hi : dataQueue d = .hi ↔ d = 0 := by simp [dataQueue]
    rw [start, State.startSend_accepted ha]
    simp only [Outputs.accept, queue_hi]
    rfl

end Sys2Proof.Machine

/-! ## The bytes of an encoded frame, received one by one (41_codec.md R142, R143, R148; 42_rx_fsm.md R161-R171) -/

namespace Sys2Proof.Machine

/-! ### The scratch buffer after a whole payload -/

/-- The buffer once `p` has been written byte by byte from index `i` on (R168). -/
def Memory.writeFrom : Memory → Nat → List Byte → Memory
  | m, _, [] => m
  | m, i, b :: p => Memory.writeFrom (m.write i b) (i + 1) p

/-- Writing from `i` on leaves what stands below `i`. -/
theorem Memory.read_writeFrom_below (p : List Byte) {j : Nat} :
    ∀ (m : Memory) (i : Nat), j < i → (m.writeFrom i p).read j = m.read j := by
  induction p with
  | nil => exact fun _ _ _ => rfl
  | cons b p ih =>
    intro m i hj
    calc (m.writeFrom i (b :: p)).read j
      _ = (m.write i b).read j := ih _ _ (Nat.lt_succ_of_lt hj)
      _ = m.read j := Memory.read_write_other m i j b (Nat.ne_of_gt hj)

/-- Every byte written reads back, at its place in the payload. -/
theorem Memory.read_writeFrom (p : List Byte) :
    ∀ (m : Memory) (i j : Nat) (hj : j < p.length), Memory.wf m → (m.writeFrom i p).read (i + j) = p[j] := by
  induction p with
  | nil => exact fun _ _ _ hj => absurd hj (Nat.not_lt_zero _)
  | cons b p ih =>
    intro m i j hj hm
    cases j with
    | zero =>
      calc (m.writeFrom i (b :: p)).read i
        _ = (m.write i b).read i := Memory.read_writeFrom_below p _ _ (Nat.lt_succ_self i)
        _ = b := Memory.read_write_same m i b hm
    | succ j =>
      simpa [Memory.writeFrom, Nat.add_assoc, Nat.add_comm 1 j] using
        ih (m.write i b) (i + 1) j (Nat.lt_of_succ_lt_succ hj) (Memory.write_wf m i b hm)

/-- A delivery reads the payload as it was received (R168, R170). -/
theorem Memory.readFirst_writeFrom (m : Memory) (p : List Byte) (hm : Memory.wf m) :
    (m.writeFrom 0 p).readFirst p.length = p := by
  refine List.ext_getElem (by simp) fun j hj hj' => ?_
  simpa [Memory.readFirst] using Memory.read_writeFrom p m 0 j hj' hm

/-! ### The RX step in the states before the closing flag -/

section RxStepEquations

variable {s : State} (b : Byte)

theorem rxStep_waitingAddress (hm : s.muxEn = true) (hr : s.rx.rxState = .waitingAddress) :
    rxStep b s = .next (rxAddress b s) := by
  simp [rxStep, hm, hr]

theorem rxStep_len (hm : s.muxEn = true) (hr : s.rx.rxState = .len) : rxStep b s = .next (rxLen b s) := by
  simp [rxStep, hm, hr]

theorem rxStep_lenExt (hm : s.muxEn = true) (hr : s.rx.rxState = .lenExt) : rxStep b s = .next (rxLenExt b s) := by
  simp [rxStep, hm, hr]

theorem rxStep_fcsCheck (hm : s.muxEn = true) (hr : s.rx.rxState = .fcsCheck) : rxStep b s = .next (rxFcs b s) := by
  simp [rxStep, hm, hr]

/-- R162: a flag is no address. -/
theorem rxAddress_flag : rxAddress FLAG s = s := if_neg fun h => h.1 rfl

/-- R161: any other byte with EA = 1 is one. -/
theorem rxAddress_start {b : Byte} (hb : b ≠ FLAG) (hea : eaBit b = true) : rxAddress b s = { s with rx := { s.rx with
    addr := b
    fcs := upd crcSeed b
    q := (s.chan (addrDlci b)).queue
    valid := true
    rxState := .cmd } } :=
  if_pos ⟨hb, hea⟩

/-- R164: with EA = 1 the first length byte is the whole length. -/
theorem rxLen_final {b : Byte} (hea : eaBit b = true) :
    rxLen b s = rxFinalise { s with rx := { s.rx with fcs := upd s.rx.fcs b, size := lenFirst b, cnt := 0 } } :=
  if_pos hea

/-- R164: with EA = 0 a second length byte follows. -/
theorem rxLen_more {b : Byte} (hea : eaBit b = false) : rxLen b s = { s with rx := { s.rx with
    fcs := upd s.rx.fcs b
    size := lenFirst b
    cnt := 0
    rxState := .lenExt } } :=
  if_neg (by simp [hea])

/-- R169: a byte that folds to the residue leaves the frame as valid as it was. -/
theorem rxFcs_good {b : Byte} (h : upd s.rx.fcs b = crcResidue) :
    rxFcs b s = { s with rx := { s.rx with fcs := crcResidue, rxState := .flagExpected } } := by
  simp [rxFcs, fcsGood, h]

end RxStepEquations

/-- A 15-bit value is the one with its number. -/
theorem len15_eq_ofNat {n : Len15} {k : Nat} (h : n.toNat = k) : n = BitVec.ofNat 15 k := by
  rw [← h, BitVec.ofNat_toNat, BitVec.setWidth_eq]

/-! ### The decoder context on its way through a frame -/

/-- The decoder context once the address and the control byte of a frame on `d` have arrived (R161, R163). -/
def State.opened (s : State) (rx : Decoder) (d : Dlci) (cr : Bool) (c : Byte) : Decoder :=
  { rx with
    addr := encAddr d cr
    ctrl := c
    fcs := crcFold crcSeed [encAddr d cr, c]
    q := (s.chan d).queue
    valid := true
    rxState := if isDataCtrl c then .len else .fcsCheck }

/-- The decoder context with `i` payload bytes counted and those of `p` to come (R166-R168). -/
def Decoder.awaiting (rx : Decoder) (i : Nat) (p : List Byte) : Decoder :=
  { rx with cnt := BitVec.ofNat 15 i, rxState := if p = [] then .fcsCheck else .data }

/-- The decoder context of a kept frame with its payload byte `i` in the scratch buffer, and in the FCS if UI (R168). -/
def Decoder.stored (rx : Decoder) (i : Nat) (b : Byte) : Decoder :=
  { rx with buf := rx.buf.write i b, fcs := if ftype rx.ctrl = typeUI then upd rx.fcs b else rx.fcs }

/-- The decoder context of a kept frame once the payload bytes `p` from index `i` on have arrived (R168). -/
def Decoder.filled (rx : Decoder) (i : Nat) (p : List Byte) : Decoder :=
  { rx with
    buf := rx.buf.writeFrom i p
    fcs := crcFold rx.fcs (if ftype rx.ctrl = typeUI then p else [])
    cnt := rx.size
    rxState := .fcsCheck }

/-! ### Runs that change the decoder context alone -/

/-- `s` with the decoder context `rx`, the answers `a` latched and `turns` to come. -/
def State.receiving (s : State) (rx : Decoder) (a : Answers) (turns : List Turn) : State :=
  { s with rx := rx, env := { s.env with turns := turns, answers := a } }

/-- From the decoder context `rx`, the bytes `bytes` take the block to the decoder context `rx'` and change nothing else. -/
def Receives (s : State) (a : Answers) (bytes : List Byte) (rx rx' : Decoder) : Prop :=
  ∀ rest, Sys2Proof.core.run bytes.length (s.receiving rx a (bytes.map (Turn.rx · a) ++ rest)) =
    Host.Outcome.next (σ := State) (s.receiving rx' a rest)

section Reception

variable {s : State} {a : Answers} {rx rx' rx'' : Decoder} {x y : List Byte} {b : Byte}

theorem Receives.nil : Receives s a [] rx rx := fun _ => rfl

theorem Receives.append (h : Receives s a x rx rx') (h' : Receives s a y rx' rx'') : Receives s a (x ++ y) rx rx'' := by
  intro rest
  rw [List.length_append, List.map_append, List.append_assoc, run_add _ _ _ _ (h _)]
  exact h' rest

/-- A byte whose step changes the decoder context alone. -/
theorem receives_byte (h : ∀ rest, rxStep b (s.receiving rx a rest) = .next (s.receiving rx' a rest)) :
    Receives s a [b] rx rx' :=
  fun rest => run_step 0 _ _ ((step_rx _ b a rest rfl).trans (h rest))

theorem Receives.cons (h : Receives s a [b] rx rx') (h' : Receives s a y rx' rx'') : Receives s a (b :: y) rx rx'' :=
  h.append h'

/-- R166: Finalise keeps a frame that its channel's MTU allows. -/
theorem rxFinalise_receiving {p : List Byte} {rest : List Turn} (hcnt : rx.cnt = 0)
    (hsize : rx.size = BitVec.ofNat 15 p.length) (hp : p.length ≤ 32767)
    (hmtu : p.length ≤ (s.chan (addrDlci rx.addr)).mtu.toNat) :
    rxFinalise (s.receiving rx a rest) = s.receiving (rx.awaiting 0 p) a rest := by
  have toNat_size : rx.size.toNat = p.length := by
    rw [hsize, BitVec.toNat_ofNat]
    exact Nat.mod_eq_of_lt (by omega)
  have fits : oversize rx.size ((s.receiving rx a rest).chan (addrDlci rx.addr)).mtu = false := by
    rw [oversize, toNat_size, decide_eq_false_iff_not]
    exact Nat.not_lt.mpr hmtu
  have empty : rx.size = 0#15 ↔ p = [] := by
    rw [← BitVec.toNat_inj, toNat_size, ← List.length_eq_zero_iff]
    rfl
  have kept : rxFinalise (s.receiving rx a rest) = s.receiving { rx with
      q := if oversize rx.size ((s.receiving rx a rest).chan (addrDlci rx.addr)).mtu then none else rx.q
      rxState := if rx.size = 0#15 then .fcsCheck else .data } a rest := rfl
  simp [kept, fits, empty, Decoder.awaiting, hcnt]

variable (hm : s.muxEn = true)

include hm

/-! ### One byte in each state of the FSM -/

/-- R161: the address byte of an encoded frame starts the frame. -/
theorem receives_address {d : Dlci} {cr : Bool} (hr : rx.rxState = .waitingAddress) (hflag : encAddr d cr ≠ FLAG) :
    Receives s a [encAddr d cr] rx { rx with
      addr := encAddr d cr
      fcs := crcFold crcSeed [encAddr d cr]
      q := (s.chan d).queue
      valid := true
      rxState := .cmd } := by
  refine receives_byte fun rest => ?_
  rw [rxStep_waitingAddress (s := s.receiving rx a rest) _ hm hr, rxAddress_start hflag (eaBit_encAddr d cr)]
  simp only [addrDlci_encAddr]
  rfl

/-- R163: the control byte is captured and folded. -/
theorem receives_control (c : Byte) (hr : rx.rxState = .cmd) :
    Receives s a [c] rx { rx with
      ctrl := c
      fcs := crcFold rx.fcs [c]
      rxState := if isDataCtrl c then .len else .fcsCheck } := by
  refine receives_byte fun rest => ?_
  rw [rxStep_cmd (s.receiving rx a rest) c hm hr, exec_decodeCtrl_cmd (s.receiving rx a rest) c hr]
  rfl

/-- R169: the FCS of what was folded leaves the frame valid. -/
theorem receives_fcs {covered : List Byte} (hr : rx.rxState = .fcsCheck) (hfcs : rx.fcs = crcFold crcSeed covered) :
    Receives s a [crcCompute covered] rx { rx with fcs := crcResidue, rxState := .flagExpected } := by
  refine receives_byte fun rest => ?_
  have good : upd rx.fcs (crcCompute covered) = crcResidue := (upd_eq_crcResidue_iff _ _).mpr (by rw [crcCompute, hfcs])
  rw [rxStep_fcsCheck (s := s.receiving rx a rest) _ hm hr, rxFcs_good (s := s.receiving rx a rest) good]
  rfl

/-! ### Address and control byte, length, payload -/

/-- R161, R163: the first two bytes of an encoded frame. -/
theorem receives_opening {d : Dlci} {cr : Bool} (c : Byte) (hr : rx.rxState = .waitingAddress)
    (hflag : encAddr d cr ≠ FLAG) : Receives s a [encAddr d cr, c] rx (s.opened rx d cr c) :=
  (receives_address hm hr hflag).cons (receives_control hm c rfl)

/-- R168: one byte of a kept frame's payload. -/
theorem receives_payload_byte {i : Nat} {p : List Byte} (hq : rx.q ≠ none) (hcap : rx.size.toNat ≤ s.cfg.scratchCap)
    (hsize : rx.size.toNat = i + (b :: p).length) :
    Receives s a [b] (rx.awaiting i (b :: p)) ((rx.stored i b).awaiting (i + 1) p) := by
  refine receives_byte fun rest => ?_
  have hlen : rx.size.toNat = i + p.length + 1 := hsize
  have hcnt : (BitVec.ofNat 15 i).toNat = i := Nat.mod_eq_of_lt (by omega)
  have hnext : BitVec.ofNat 15 i + 1#15 = BitVec.ofNat 15 (i + 1) := (BitVec.ofNat_add i 1).symm
  have last : BitVec.ofNat 15 (i + 1) = rx.size ↔ p = [] := by
    rw [← BitVec.toNat_inj, BitVec.toNat_ofNat, Nat.mod_eq_of_lt (by omega), ← List.length_eq_zero_iff]
    omega
  have room : (BitVec.ofNat 15 i).toNat < s.cfg.scratchCap := by omega
  calc rxStep b (s.receiving (rx.awaiting i (b :: p)) a rest)
    _ = rxData b (s.receiving (rx.awaiting i (b :: p)) a rest) := rxStep_data b hm rfl
    _ = .next (rxCount _) := rxData_kept _ b hq room
    _ = _ := by simp [rxCount_data, State.receiving, Decoder.awaiting, Decoder.stored, hcnt, hnext, last]

/-- R168: the payload of a kept frame goes to the scratch buffer, and into the FCS if the frame is UI. By induction on the
bytes still to come. -/
theorem receives_payload (p : List Byte) :
    ∀ (rx : Decoder) (i : Nat), rx.q ≠ none → rx.size.toNat ≤ s.cfg.scratchCap → rx.size.toNat = i + p.length →
      Receives s a p (rx.awaiting i p) (rx.filled i p) := by
  induction p with
  | nil =>
    intro rx i _ _ hsize
    have hcnt : BitVec.ofNat 15 i = rx.size := (len15_eq_ofNat hsize).symm
    have done : rx.awaiting i [] = rx.filled i [] := by simp [Decoder.awaiting, Decoder.filled, Memory.writeFrom, hcnt]
    rw [done]
    exact .nil
  | cons b p ih =>
    intro rx i hq hcap hsize
    have stored : (rx.stored i b).filled (i + 1) p = rx.filled i (b :: p) := by
      by_cases hc : ftype rx.ctrl = typeUI <;> simp [Decoder.filled, Decoder.stored, Memory.writeFrom, hc]
    have tail := ih (rx.stored i b) (i + 1) hq hcap (by rw [Decoder.stored, hsize, List.length_cons]; omega)
    rw [stored] at tail
    exact (receives_payload_byte hm hq hcap hsize).cons tail

/-- R164-R166: the length field of a frame that its channel's MTU allows. -/
theorem receives_length {p : List Byte} (hr : rx.rxState = .len) (hp : p.length ≤ 32767)
    (hmtu : p.length ≤ (s.chan (addrDlci rx.addr)).mtu.toNat) :
    Receives s a (encLen p.length) rx
      ({ rx with fcs := crcFold rx.fcs (encLen p.length), size := BitVec.ofNat 15 p.length }.awaiting 0 p) := by
  obtain ⟨short, long⟩ := lengthFieldRoundTrip p.length hp
  by_cases hn : p.length ≤ 127
  · obtain ⟨b, henc, hea, hlen⟩ := short hn
    have hsize : lenFirst b = BitVec.ofNat 15 p.length := len15_eq_ofNat hlen
    rw [henc, ← hsize]
    refine receives_byte fun rest => ?_
    rw [rxStep_len (s := s.receiving rx a rest) b hm hr, rxLen_final hea]
    exact congrArg Host.Outcome.next (rxFinalise_receiving rfl hsize hp hmtu)
  · obtain ⟨b1, b2, henc, hea, hlen⟩ := long (Nat.lt_of_not_le hn)
    have hsize : lenSecond (lenFirst b1) b2 = BitVec.ofNat 15 p.length := len15_eq_ofNat hlen
    rw [henc, ← hsize]
    have first : Receives s a [b1] rx
        { rx with fcs := upd rx.fcs b1, size := lenFirst b1, cnt := 0, rxState := .lenExt } := by
      refine receives_byte fun rest => ?_
      rw [rxStep_len (s := s.receiving rx a rest) b1 hm hr, rxLen_more hea]
      rfl
    refine first.cons (receives_byte fun rest => ?_)
    rw [rxStep_lenExt (s := s.receiving _ a rest) b2 hm rfl]
    exact congrArg Host.Outcome.next (rxFinalise_receiving rfl hsize hp hmtu)

/-! ### A whole frame -/

/-- R80, R160-R172: a flag, a body that takes the decoder context to the end of a valid frame, and the closing flag run the
instruction of the frame's control byte. -/
theorem run_frame {frame body : List Byte} {rest : List Turn} {t : State} (hframe : frame = FLAG :: (body ++ [FLAG]))
    (hr : s.rx.rxState = .waitingAddress) (ht : s.env.turns = frame.map (Turn.rx · a) ++ rest)
    (hbody : Receives s a body s.rx rx) (hend : rx.rxState = .flagExpected) (hv : rx.valid = true)
    (hclose : exec (decodeCtrl rx.ctrl) (s.receiving rx a rest) = .next t) :
    Sys2Proof.core.run frame.length s = Host.Outcome.next (σ := State) t := by
  have turns : s.env.turns = Turn.rx FLAG a :: (body.map (Turn.rx · a) ++ Turn.rx FLAG a :: rest) := by
    simpa [hframe] using ht
  have opening : step s = .next (s.receiving s.rx a (body.map (Turn.rx · a) ++ Turn.rx FLAG a :: rest)) := by
    rw [step_rx s FLAG a _ turns, rxStep_waitingAddress (s := s.beginTurn _ a) FLAG hm hr, rxAddress_flag]
    rfl
  have closing : step (s.receiving rx a (Turn.rx FLAG a :: rest)) = .next t := by
    rw [step_rx _ FLAG a rest rfl, ← hclose]
    exact (rxStep_flagExpected (s.receiving rx a rest) FLAG hm hend).trans (rxFlag_valid (s.receiving rx a rest) hv)
  rw [hframe, List.length_cons, List.length_append, run_step _ s _ opening, run_add _ _ _ _ (hbody _)]
  exact run_step 0 _ t closing

end Reception

/-- Settles O59: the body of the frame is address, control byte and FCS, and its closing flag runs the manager. -/
theorem encodedCommandFramesReachTheManager : Obligations.EncodedCommandFramesReachTheManager := by
  intro s d cr c a rest hm hr hui huih hflag ht
  have command : isDataCtrl c = false := by
    simpa [isDataCtrl, ftype, ftypeMask, typeUI, typeUIH] using And.intro hui huih
  have opening := receives_opening (a := a) hm c hr hflag
  have body := opening.append (receives_fcs hm (covered := [encAddr d cr, c]) (by simp [State.opened, command]) rfl)
  let s1 := s.receiving { s.opened s.rx d cr c with fcs := crcResidue, rxState := .flagExpected } a rest
  have runs : exec (decodeCtrl c) s1 = connMgr (managerAction c) s1 := by
    rw [exec_decodeCtrl_close s1 c (by simp [s1, State.receiving]), command]
    rfl
  exact ⟨s1, _, run_frame hm rfl hr ht body rfl rfl runs, runs, rfl, rfl, rfl, rfl, rfl, rfl⟩

/-- R143: UI and UIH are data frames' control bytes. -/
theorem isDataCtrl_dataCtrl (mode : Mode) : isDataCtrl (dataCtrl mode) = true := by cases mode <;> rfl

/-- R87: the FCS covers the payload of a UI frame alone. -/
theorem dataCovered_eq (d : Dlci) (cr : Bool) (mode : Mode) (p : List Byte) :
    dataCovered d cr mode p = [encAddr d cr, dataCtrl mode] ++ encLen p.length ++
      (if ftype (dataCtrl mode) = typeUI then p else []) := by
  cases mode <;> rfl

/-- R170: a delivery pushes the whole payload where the queue has room for it. -/
theorem State.pushPayload_all {s : State} {p : List Byte} (q : Handle) (hsize : s.rx.size.toNat = p.length)
    (hfree : p.length ≤ s.env.answers.qFree) (hcap : p.length ≤ s.cfg.scratchCap)
    (hbuf : s.rx.buf.readFirst p.length = p) : s.pushPayload q = .next (s.push q p) := by
  simp [State.pushPayload, hsize, Nat.min_eq_left hfree, Nat.not_lt.mpr hcap, hbuf]

/-- The decoder context at the closing flag of an encoded data frame. -/
def State.dataReceived (s : State) (d : Dlci) (cr : Bool) (mode : Mode) (p : List Byte) : Decoder :=
  { s.opened s.rx d cr (dataCtrl mode) with
    buf := s.rx.buf.writeFrom 0 p
    fcs := crcResidue
    size := BitVec.ofNat 15 p.length
    cnt := BitVec.ofNat 15 p.length
    rxState := .flagExpected }

/-- R161-R169: the bytes between the two flags of an encoded data frame that its channel keeps. -/
theorem receives_data {s : State} {d : Dlci} {cr : Bool} {mode : Mode} {p : List Byte} {a : Answers} (hm : s.muxEn = true) (hr : s.rx.rxState = .waitingAddress) (hflag : encAddr d cr ≠ FLAG)
    (hq : (s.chan d).queue ≠ none) (hp : p.length ≤ 32767) (hmtu : p.length ≤ (s.chan d).mtu.toNat)
    (hcap : p.length ≤ s.cfg.scratchCap) :
    Receives s a (dataHeader d cr mode p.length ++ p ++ [crcCompute (dataCovered d cr mode p)]) s.rx
      (s.dataReceived d cr mode p) := by
  have toNat_size : (BitVec.ofNat 15 p.length).toNat = p.length := Nat.mod_eq_of_lt (by omega)
  have opening := receives_opening (a := a) hm (dataCtrl mode) hr hflag
  have header := opening.append (receives_length hm (p := p) (by simp [State.opened, isDataCtrl_dataCtrl]) hp
    (by simpa [State.opened, addrDlci_encAddr] using hmtu))
  have payload := header.append (receives_payload hm p _ 0 hq (toNat_size.trans_le hcap) (by simpa using toNat_size))
  exact payload.append (receives_fcs hm rfl (by rw [dataCovered_eq, crcFold_append, crcFold_append]; rfl))

/-- Settles O58: `receives_data` stores the payload in the scratch buffer, and the closing flag delivers it from there. -/
theorem encodedDataFramesAreDelivered : Obligations.EncodedDataFramesAreDelivered := by
  intro s d cr mode p h a rest hs hm hr hmtu hq hd hfree hflag ht
  have hcap : p.length ≤ s.cfg.scratchCap := hmtu.trans (hs.mtu d)
  obtain ⟨_, hcap15⟩ : s.cfg.Ok := hs.cap
  have hp : p.length ≤ 32767 := hcap.trans hcap15
  have body := receives_data (a := a) (cr := cr) (mode := mode) hm hr hflag (by simp [hq]) hp hmtu hcap
  let s1 := s.receiving (s.dataReceived d cr mode p) a rest
  have runs : exec (decodeCtrl (dataCtrl mode)) s1 = .next ((s1.setRxState .waitingAddress).push h p) := by
    rw [exec_decodeCtrl_close s1 _ (by simp [s1, State.receiving, State.dataReceived]), isDataCtrl_dataCtrl, if_pos rfl]
    have toNat_size : s1.rx.size.toNat = p.length := Nat.mod_eq_of_lt (Nat.lt_succ_of_le hp)
    have deliver : deliverable (addrDlci s1.rx.addr) (s1.chan (addrDlci s1.rx.addr)) = true :=
      (deliverable_iff _ _).mpr (by rw [show addrDlci s1.rx.addr = d from addrDlci_encAddr d cr]; exact hd)
    rw [s1.deliver_push h hq deliver]
    exact State.pushPayload_all h toNat_size hfree hcap (Memory.readFirst_writeFrom s.rx.buf p hs.bufForm)
  exact ⟨_, run_frame hm (by simp [encodeData]) hr ht body rfl rfl runs, rfl, rfl, rfl, rfl, rfl, rfl, rfl, rfl, hm⟩

end Sys2Proof.Machine

/-! ## One byte in each state of the receive FSM (42_rx_fsm.md R160-R169, R172) -/

namespace Sys2Proof.Machine

/-- R163: a data frame's control byte is one of two types. -/
theorem isDataCtrl_iff (c : Byte) : isDataCtrl c = true ↔ c &&& 0xEF#8 = 0x03#8 ∨ c &&& 0xEF#8 = 0xEF#8 := by
  simp [isDataCtrl, ftype, ftypeMask, typeUI, typeUIH]

/-- Settles O25, by `exec_decodeCtrl_cmd`: the control byte is captured whatever it decodes to. -/
theorem controlByteIsCapturedInCmd : Obligations.ControlByteIsCapturedInCmd := by
  intro c s hr
  rw [exec_decodeCtrl_cmd s c hr, State.captureControl, if_congr (isDataCtrl_iff c) rfl rfl]

section RxByteEquations

variable {s : State} {b : Byte}

/-- R160: with multiplexing off a byte goes to the raw handler. -/
theorem rxStep_raw (b : Byte) (hm : s.muxEn = false) : rxStep b s = .next (s.emitRaw b) := by
  simp [rxStep, hm]

/-- R162: a flag, or a byte with EA = 0, is no address. -/
theorem rxAddress_ignored (h : b = FLAG ∨ eaBit b = false) : rxAddress b s = s := by
  refine if_neg fun ⟨hflag, hea⟩ => ?_
  rcases h with h | h
  · exact hflag h
  · simp [h] at hea

/-- R166: Finalise marks for discard a frame without a destination, which it already is, or above its channel's MTU. -/
theorem rxFinalise_eq (s : State) : rxFinalise s = { s with rx := { s.rx with
    q := if s.rx.q = none ∨ (s.chan (addrDlci s.rx.addr)).mtu.toNat < s.rx.size.toNat then none else s.rx.q
    rxState := if s.rx.size = 0 then .fcsCheck else .data } } := by
  cases hq : s.rx.q <;> simp [rxFinalise, oversize, hq]

/-- R169: the residue leaves the frame as valid as it was, and anything else marks it invalid. -/
theorem rxFcs_eq (b : Byte) (s : State) : rxFcs b s = { s with rx := { s.rx with
    fcs := upd s.rx.fcs b
    valid := if upd s.rx.fcs b ≠ crcResidue then false else s.rx.valid
    rxState := .flagExpected } } := by
  simp [rxFcs, fcsGood]

/-- R172: in FLAG_EXPECTED a byte other than the flag, or a flag that closes an invalid frame, discards the frame. -/
theorem rxFlag_bad (h : b ≠ FLAG ∨ s.rx.valid = false) :
    rxFlag b s = .next ((s.setRxState .waitingAddress).logEvent (if b ≠ FLAG then .framing else .fcs)) := by
  by_cases hb : b = FLAG
  · have hv : s.rx.valid = false := h.resolve_left (not_not_intro hb)
    simp [rxFlag, hb, hv]
  · simp [rxFlag, hb]

end RxByteEquations

/-- Settles O22, by `rxStep_raw`. -/
theorem bytesGoRawWhileMuxIsOff : Obligations.BytesGoRawWhileMuxIsOff := by
  intro s b a rest ht hm
  rw [step_rx s b a rest ht]
  exact rxStep_raw (s := s.beginTurn rest a) b hm

/-- Settles O23, by `rxAddress_start`. -/
theorem addressByteStartsAFrame : Obligations.AddressByteStartsAFrame := by
  intro s b a rest ht hm hr hflag hea
  calc step s
    _ = rxStep b (s.beginTurn rest a) := step_rx s b a rest ht
    _ = .next (rxAddress b (s.beginTurn rest a)) := rxStep_waitingAddress b hm hr
    _ = _ := congrArg Host.Outcome.next (rxAddress_start hflag hea)

/-- Settles O24, by `rxAddress_ignored`. -/
theorem flagsAndNonAddressesAreIgnored : Obligations.FlagsAndNonAddressesAreIgnored := by
  intro s b a rest ht hm hr hb
  calc step s
    _ = rxStep b (s.beginTurn rest a) := step_rx s b a rest ht
    _ = .next (rxAddress b (s.beginTurn rest a)) := rxStep_waitingAddress b hm hr
    _ = .next (s.beginTurn rest a) := congrArg Host.Outcome.next (rxAddress_ignored hb)

/-- Settles O26: EA = 0 asks for a second byte (`rxLen_more`), EA = 1 completes the length (`rxLen_final`, `rxFinalise_eq`). -/
theorem firstLengthByte : Obligations.FirstLengthByte := by
  intro s b a rest ht hm hr n
  have hstep : step s = .next (rxLen b (s.beginTurn rest a)) :=
    (step_rx s b a rest ht).trans (rxStep_len (s := s.beginTurn rest a) b hm hr)
  refine ⟨fun hea => ?more, fun hea => ?final⟩
  case more => exact hstep.trans (congrArg Host.Outcome.next (rxLen_more hea))
  case final => exact hstep.trans (congrArg Host.Outcome.next ((rxLen_final hea).trans (rxFinalise_eq _)))

/-- Settles O27, by `rxFinalise_eq`. -/
theorem secondLengthByte : Obligations.SecondLengthByte := by
  intro s b a rest ht hm hr n
  calc step s
    _ = rxStep b (s.beginTurn rest a) := step_rx s b a rest ht
    _ = .next (rxLenExt b (s.beginTurn rest a)) := rxStep_lenExt b hm hr
    _ = _ := congrArg Host.Outcome.next (rxFinalise_eq _)

/-- Settles O28: the byte of a discarded frame is only counted (`rxData_discarded`, `rxCount_data`). -/
theorem payloadByteOfADiscardedFrame : Obligations.PayloadByteOfADiscardedFrame := by
  intro s b a rest ht hm hr hq
  calc step s
    _ = rxStep b (s.beginTurn rest a) := step_rx s b a rest ht
    _ = rxData b (s.beginTurn rest a) := rxStep_data b hm hr
    _ = .next (rxCount (s.beginTurn rest a)) := rxData_discarded b hq
    _ = _ := congrArg Host.Outcome.next (rxCount_data hr)

/-- Settles O30, by `rxFcs_eq`. -/
theorem fcsByteIsChecked : Obligations.FcsByteIsChecked := by
  intro s b a rest ht hm hr
  calc step s
    _ = rxStep b (s.beginTurn rest a) := step_rx s b a rest ht
    _ = .next (rxFcs b (s.beginTurn rest a)) := rxStep_fcsCheck b hm hr
    _ = _ := congrArg Host.Outcome.next (rxFcs_eq b _)

/-- Settles O31, by `rxFlag_bad`. -/
theorem badClosingIsDiscarded : Obligations.BadClosingIsDiscarded := by
  intro s b a rest ht hm hr hbad
  calc step s
    _ = rxStep b (s.beginTurn rest a) := step_rx s b a rest ht
    _ = rxFlag b (s.beginTurn rest a) := rxStep_flagExpected (s.beginTurn rest a) b hm hr
    _ = _ := rxFlag_bad hbad

end Sys2Proof.Machine

/-! ## The connection manager's answers at the closing flag (42_rx_fsm.md R171; 43_conn_mgr.md R190-R196) -/

namespace Sys2Proof.Machine

/-- R196: a reply changes the outputs alone. -/
theorem State.replyFrame_eq (s : State) (d : Dlci) (cr : Bool) (c2 : Byte) : s.replyFrame d cr c2 = { s with
    out := if s.env.answers.txHiOk = true then { s.out with txHi := s.out.txHi ++ [encodeCmd d cr c2] }
      else { s.out with events := s.out.events ++ [.replyDrop] } } := by
  rw [← s.replyFrame_out d cr c2]
  rcases s.replyFrame_cases d cr c2 with ⟨_, h⟩ | ⟨_, h⟩ <;> rw [h] <;> rfl

/-- Writing a `connected` flag the value it has changes nothing. -/
theorem State.setConnected_self {s : State} {d : Dlci} {v : Bool} (h : (s.chan d).connected = v) :
    s.setConnected d v = s := by
  rw [State.setConnected, ← h, State.setChan_chan]

/-- R190: DISC clears the flag in both cases, and the flag it finds selects the answer. -/
theorem discAnswer_eq (dc : BitVec 7) (s : State) : discAnswer dc s =
    (s.setConnected (dcDlci dc) false).replyFrame (dcDlci dc) (dcCr dc)
      (if (s.chan (dcDlci dc)).connected = true then ctrlUaPf else ctrlDmPf) := by
  cases hc : (s.chan (dcDlci dc)).connected with
  | true => simp [discAnswer, hc]
  | false => simp [discAnswer, hc, State.setConnected_self hc]

/-- R190: DLCI 0's signal is raised after the answer. -/
theorem discAction_disc0 (dc : BitVec 7) (s : State) : discAction dc s = { discAnswer dc s with
    disc0Pending := if dcDlci dc = 0 then true else (discAnswer dc s).disc0Pending } := by
  rw [discAction_eq]
  split <;> simp [State.raiseDisc0, *]

/-- Settles O33: at the closing flag SABM runs the manager, whose operand carries the DLCI and the CR bit of the address. -/
theorem sabmConnectsAndAnswersUa : Obligations.SabmConnectsAndAnswersUa := by
  intro pf s hr d s1
  rw [exec_sabm_close s pf (by simp [hr]), connMgr, sabmAction, dcDlci_addrDc, dcCr_addrDc, State.replyFrame_eq]
  rfl

/-- Settles O34: at the closing flag DISC runs the manager, by `discAction_disc0` and `discAnswer_eq`. -/
theorem discDisconnectsAndAnswers : Obligations.DiscDisconnectsAndAnswers := by
  intro pf s hr d s1 c2
  rw [exec_disc_close s pf (by simp [hr]), connMgr, discAction_disc0, discAnswer_eq, dcDlci_addrDc, dcCr_addrDc,
    State.replyFrame_eq]
  rfl

/-- Settles O36: at the closing flag any other frame type records its event, by `exec_other_close`. -/
theorem otherFrameTypesAreDiscarded : Obligations.OtherFrameTypesAreDiscarded := by
  intro c s hr
  exact exec_other_close s c (by simp [hr])

end Sys2Proof.Machine

/-! ## Resynchronisation (42_rx_fsm.md R174) -/

namespace Sys2Proof.Machine

open Sys2Proof.Safety

/-- The RX steps that are left, at most, until the FSM is back in WAITING_ADDRESS: in DATA the payload bytes to come and the
two steps of FCS_CHECK and FLAG_EXPECTED, before DATA one step for each header byte and the longest payload. State 7 is never
reached (R23). -/
def Decoder.stepsLeft (rx : Decoder) : Nat :=
  match rx.rxState with
  | .waitingAddress => 0
  | .cmd => 32772
  | .len => 32771
  | .lenExt => 32770
  | .data => rx.size.toNat - rx.cnt.toNat + 2
  | .fcsCheck => 2
  | .flagExpected => 1
  | .unused7 => 0

section StepsLeft

variable {rx : Decoder}

theorem stepsLeft_waitingAddress (h : rx.rxState = .waitingAddress) : rx.stepsLeft = 0 := by simp [Decoder.stepsLeft, h]
theorem stepsLeft_cmd (h : rx.rxState = .cmd) : rx.stepsLeft = 32772 := by simp [Decoder.stepsLeft, h]
theorem stepsLeft_len (h : rx.rxState = .len) : rx.stepsLeft = 32771 := by simp [Decoder.stepsLeft, h]
theorem stepsLeft_lenExt (h : rx.rxState = .lenExt) : rx.stepsLeft = 32770 := by simp [Decoder.stepsLeft, h]
theorem stepsLeft_fcsCheck (h : rx.rxState = .fcsCheck) : rx.stepsLeft = 2 := by simp [Decoder.stepsLeft, h]
theorem stepsLeft_flagExpected (h : rx.rxState = .flagExpected) : rx.stepsLeft = 1 := by simp [Decoder.stepsLeft, h]
theorem stepsLeft_data (h : rx.rxState = .data) : rx.stepsLeft = rx.size.toNat - rx.cnt.toNat + 2 := by
  simp [Decoder.stepsLeft, h]

/-- Only WAITING_ADDRESS has no step left. -/
theorem waitingAddress_of_stepsLeft (hused : rx.rxState ≠ .unused7) (h : rx.stepsLeft = 0) :
    rx.rxState = .waitingAddress := by
  cases hr : rx.rxState with
  | waitingAddress => rfl
  | unused7 => exact absurd hr hused
  | _ => simp [Decoder.stepsLeft, hr] at h

/-- R174: the bound over all states, which CMD reaches. -/
theorem stepsLeft_le (rx : Decoder) : rx.stepsLeft ≤ 32772 := by
  have hsize : rx.size.toNat < 32768 := rx.size.isLt
  unfold Decoder.stepsLeft
  split <;> omega

end StepsLeft

section Resynchronisation

variable {s t : State} {b : Byte}

/-! ### Every RX step answers a next state -/

/-- R42: a delivery does not stop where a kept frame's size fits the scratch buffer. -/
theorem State.deliver_answers (h : s.rx.q ≠ none → s.rx.size.toNat ≤ s.cfg.scratchCap) : ∃ t, s.deliver = .next t := by
  cases hq : s.rx.q with
  | none => exact ⟨_, s.deliver_none hq⟩
  | some q =>
    have hsize : s.rx.size.toNat ≤ s.cfg.scratchCap := h (by simp [hq])
    cases hd : deliverable (addrDlci s.rx.addr) (s.chan (addrDlci s.rx.addr)) with
    | false => exact ⟨_, s.deliver_unconnected q hq hd⟩
    | true =>
      rw [s.deliver_push q hq hd, State.pushPayload_eq]
      exact ⟨_, if_neg (Nat.not_lt.mpr ((Nat.min_le_left ..).trans hsize))⟩

/-- R170-R172: no byte in FLAG_EXPECTED stops the block. -/
theorem rxFlag_answers (b : Byte) (h : DecoderInv s.cfg.scratchCap s.rx) (hr : s.rx.rxState = .flagExpected) :
    ∃ t, rxFlag b s = .next t := by
  by_cases hbad : b ≠ FLAG ∨ s.rx.valid = false
  · exact ⟨_, rxFlag_bad hbad⟩
  · obtain ⟨rfl, hv⟩ : b = FLAG ∧ s.rx.valid = true := by simpa using hbad
    rw [rxFlag_valid s hv, exec_decodeCtrl_close s _ (by simp [hr])]
    split
    case isTrue hdata => exact State.deliver_answers (h.room (.inr (.inr hr)) hdata)
    case isFalse => exact ⟨_, rfl⟩

/-- R167, R168: no payload byte stops the block. -/
theorem rxData_answers (b : Byte) (h : DecoderInv s.cfg.scratchCap s.rx) (hr : s.rx.rxState = .data) :
    ∃ t, rxData b s = .next t := by
  by_cases hq : s.rx.q = none
  · exact ⟨_, rxData_discarded b hq⟩
  · have hsize : s.rx.size.toNat ≤ s.cfg.scratchCap := h.room (.inl hr) (h.dataCtrl (.inr (.inr hr))) hq
    have hcnt : s.rx.cnt.toNat < s.rx.size.toNat := h.count hr
    exact ⟨_, rxData_kept s b hq (hcnt.trans_le hsize)⟩

/-- R240: no RX byte stops the block, by the state it finds the FSM in. -/
theorem rxStep_answers (b : Byte) (h : DecoderInv s.cfg.scratchCap s.rx) : ∃ t, rxStep b s = .next t := by
  cases hm : s.muxEn with
  | false => exact ⟨_, rxStep_raw b hm⟩
  | true =>
    cases hr : s.rx.rxState with
    | waitingAddress => exact ⟨_, rxStep_waitingAddress b hm hr⟩
    | cmd => exact ⟨_, (rxStep_cmd s b hm hr).trans (exec_decodeCtrl_cmd s b hr)⟩
    | len => exact ⟨_, rxStep_len b hm hr⟩
    | lenExt => exact ⟨_, rxStep_lenExt b hm hr⟩
    | data => exact rxStep_data b hm hr ▸ rxData_answers b h hr
    | fcsCheck => exact ⟨_, rxStep_fcsCheck b hm hr⟩
    | flagExpected => exact rxStep_flagExpected s b hm hr ▸ rxFlag_answers b h hr
    | unused7 => exact absurd hr h.rxState

/-! ### Every RX step of a frame leaves fewer steps -/

/-- R163: after the control byte comes the length or the FCS. -/
theorem captureControl_stepsLeft (c : Byte) (hr : s.rx.rxState = .cmd) :
    (s.captureControl c).rx.stepsLeft < s.rx.stepsLeft := by
  rw [stepsLeft_cmd hr]
  cases hc : isDataCtrl c with
  | true => rw [stepsLeft_len (by simp [hc])]; decide
  | false => rw [stepsLeft_fcsCheck (by simp [hc])]; decide

/-- R166: once the length is complete, what is left is the payload, at most 32767 bytes, the FCS and the flag. -/
theorem rxFinalise_stepsLeft (s : State) : (rxFinalise s).rx.stepsLeft ≤ 32769 := by
  have hsize : (rxFinalise s).rx.size.toNat < 32768 := (rxFinalise s).rx.size.isLt
  by_cases h0 : s.rx.size = 0
  · rw [stepsLeft_fcsCheck (by simp [rxFinalise, h0])]
    decide
  · rw [stepsLeft_data (if_neg h0)]
    omega

theorem rxLen_stepsLeft (b : Byte) (hr : s.rx.rxState = .len) : (rxLen b s).rx.stepsLeft < s.rx.stepsLeft := by
  rw [stepsLeft_len hr]
  cases hea : eaBit b with
  | true =>
    rw [rxLen_final hea]
    exact (rxFinalise_stepsLeft _).trans_lt (by decide)
  | false =>
    rw [rxLen_more hea, stepsLeft_lenExt rfl]
    decide

theorem rxLenExt_stepsLeft (b : Byte) (hr : s.rx.rxState = .lenExt) : (rxLenExt b s).rx.stepsLeft < s.rx.stepsLeft := by
  rw [stepsLeft_lenExt hr]
  exact Nat.lt_succ_of_le (rxFinalise_stepsLeft _)

/-- R167, R168: the count of a payload byte brings DATA one step nearer to its end. -/
theorem rxCount_stepsLeft (hr : s.rx.rxState = .data) (hlt : s.rx.cnt < s.rx.size) :
    (rxCount s).rx.stepsLeft < s.rx.stepsLeft := by
  have hlt' : s.rx.cnt.toNat < s.rx.size.toNat := hlt
  rw [stepsLeft_data hr, rxCount_data hr]
  by_cases hlast : s.rx.cnt + 1 = s.rx.size
  · rw [stepsLeft_fcsCheck (if_pos hlast)]
    omega
  · have hnext : (s.rx.cnt + 1).toNat = s.rx.cnt.toNat + 1 := by bv_omega
    rw [stepsLeft_data (if_neg hlast)]
    show s.rx.size.toNat - (s.rx.cnt + 1).toNat + 2 < _
    omega

theorem rxData_stepsLeft (hr : s.rx.rxState = .data) (hlt : s.rx.cnt < s.rx.size) (h : rxData b s = .next t) :
    t.rx.stepsLeft < s.rx.stepsLeft := by
  rcases rxData_cases s b t h with ⟨_, rfl⟩ | ⟨_, _, rfl⟩
  · exact rxCount_stepsLeft hr hlt
  · exact (rxCount_stepsLeft hr hlt).trans_eq ((stepsLeft_data hr).trans (stepsLeft_data hr).symm)

/-- R174: with multiplexing on, a byte that arrives outside WAITING_ADDRESS leaves fewer steps. -/
theorem rxStep_stepsLeft (hcount : s.rx.rxState = .data → s.rx.cnt < s.rx.size) (hm : s.muxEn = true)
    (hw : s.rx.rxState ≠ .waitingAddress) (h : rxStep b s = .next t) : t.rx.stepsLeft < s.rx.stepsLeft := by
  rcases rxStep_cases s b t h with
    ⟨hoff, _⟩ | ⟨_, ⟨hr, _⟩ | ⟨hr, h⟩ | ⟨hr, rfl⟩ | ⟨hr, rfl⟩ | ⟨hr, h⟩ | ⟨hr, rfl⟩ | ⟨hr, h⟩⟩
  · simp [hm] at hoff
  · exact absurd hr hw
  · rw [exec_decodeCtrl_cmd s b hr] at h
    cases h
    exact captureControl_stepsLeft b hr
  · exact rxLen_stepsLeft b hr
  · exact rxLenExt_stepsLeft b hr
  · exact rxData_stepsLeft hr (hcount hr) h
  · rw [stepsLeft_fcsCheck hr, stepsLeft_flagExpected rfl]
    decide
  · rw [stepsLeft_flagExpected hr, stepsLeft_waitingAddress (by rw [rxFlag_rx hr h])]
    decide

/-- R174: a schedule of at least `n` RX turns brings the FSM back to WAITING_ADDRESS in at most `n` steps, if no more than
`n` are left. By induction on `n`, one RX step at a time. -/
theorem run_resynchronises (n : Nat) : ∀ s : State, Inv s → s.muxEn = true → s.rx.stepsLeft ≤ n →
    n ≤ s.env.turns.length → (∀ x ∈ s.env.turns, ∃ b a, x = .rx b a) →
    ∃ (k : Nat) (t : State), k ≤ n ∧ Sys2Proof.core.run k s = Host.Outcome.next (σ := State) t ∧
      t.rx.rxState = .waitingAddress := by
  induction n with
  | zero =>
    intro s hs _ hleft _ _
    exact ⟨0, s, le_rfl, run_zero s, waitingAddress_of_stepsLeft hs.rxState (Nat.le_zero.mp hleft)⟩
  | succ n ih =>
    intro s hs hm hleft hlen hturns
    by_cases hw : s.rx.rxState = .waitingAddress
    · exact ⟨0, s, Nat.zero_le _, run_zero s, hw⟩
    · obtain ⟨x, rest, ht⟩ := List.exists_cons_of_length_pos (Nat.zero_lt_of_lt hlen)
      rw [ht] at hlen hturns
      obtain ⟨b, a, rfl⟩ := hturns x List.mem_cons_self
      have hs' : Inv (s.beginTurn rest a) := beginTurn_inv hs rest a
      obtain ⟨_, _, decoder, _⟩ := (inv_iff _).mp hs'
      obtain ⟨t, h⟩ := rxStep_answers b decoder
      have fewer : t.rx.stepsLeft < s.rx.stepsLeft := rxStep_stepsLeft (s := s.beginTurn rest a) decoder.count hm hw h
      have rights : RxRights (s.beginTurn rest a) t := (rxStep_effect h).rxRights
      have turns : t.env.turns = rest := congrArg Env.turns rights.env
      obtain ⟨k, u, hk, hrun, hu⟩ := ih t (rxStep_inv hs' h) (rights.muxEn.trans hm) (by omega)
        (turns ▸ Nat.le_of_succ_le_succ hlen) (turns ▸ fun y hy => hturns y (List.mem_cons_of_mem _ hy))
      exact ⟨k + 1, u, Nat.succ_le_succ hk, (run_step k s t ((step_rx s b a rest ht).trans h)).trans hrun, hu⟩

end Resynchronisation

/-- Settles O60, by `run_resynchronises`: at most 32772 steps are ever left. -/
theorem fsmResynchronises : Obligations.FsmResynchronises :=
  fun s hs hm _ hlen hturns => run_resynchronises 32772 s hs hm (stepsLeft_le s.rx) hlen hturns

end Sys2Proof.Machine

/-! ## SABM on a connected channel (43_conn_mgr.md R197) -/

namespace Sys2Proof.Machine

/-- Settles O37, as R197 is derived: R191 and R196 (`sabmConnectsAndAnswersUa`) give the next state, where connecting a
connected channel changes nothing (`State.setConnected_self`) and TX_HI's acceptance selects the reply. -/
theorem sabmIsIdempotent : Obligations.SabmIsIdempotent := by
  intro pf s hr hok hc
  have unchanged := State.setConnected_self hc
  have answered := sabmConnectsAndAnswersUa pf s hr
  rw [State.setConnected] at unchanged
  simpa only [unchanged, hok, if_true] using answered

end Sys2Proof.Machine

/-! ## The host operations one by one (30_encoding.md R90, R91, R93; 44_host_ops.md R210-R223) -/

namespace Sys2Proof.Machine

/-! ### What each op code decodes to: its operation, with the fields R90 lists for it -/

section HostDecoding

variable {w : HostWord}

/-- The control byte of SEND_CMD is `W[7:0]` (R90). -/
theorem extractLsb'_hostArg (w : HostWord) : (hostArg w).extractLsb' 0 8 = w.extractLsb' 0 8 := by
  ext i
  simp [hostArg]

theorem decodeHost_sendCmd (h : hostOp w = 0x1#4) :
    decodeHost w = .sendCmd (hostDlci w) (hostCr w) (w.extractLsb' 0 8) := by
  simp [decodeHost, h, extractLsb'_hostArg]

theorem decodeHost_cfgChan (h : hostOp w = 0x3#4) :
    decodeHost w = .cfgChan (hostDlci w) (modeOfBit (hostB w)) (hostArg w) := by
  simp [decodeHost, h]

theorem decodeHost_bindQueue (h : hostOp w = 0x4#4) : decodeHost w = .bindQueue (hostDlci w) (hostB w) (hostArg w) := by
  simp [decodeHost, h]

theorem decodeHost_setConn (h : hostOp w = 0x5#4) : decodeHost w = .setConn (hostDlci w) (hostB w) := by
  simp [decodeHost, h]

theorem decodeHost_readChan (h : hostOp w = 0x6#4) : decodeHost w = .readChan (hostDlci w) := by
  simp [decodeHost, h]

theorem decodeHost_readStatus (h : hostOp w = 0x7#4) : decodeHost w = .readStatus := by
  simp [decodeHost, h]

theorem decodeHost_ackDisc0 (h : hostOp w = 0x8#4) : decodeHost w = .ackDisc0 := by
  simp [decodeHost, h]

theorem decodeHost_setMuxEn (h : hostOp w = 0x9#4) : decodeHost w = .setMuxEn (hostB w) := by
  simp [decodeHost, h]

/-- The instructions of the reserved op codes (R220). -/
def reservedInstrs : List Instr :=
  [.reservedOp0, .reservedOpA, .reservedOpB, .reservedOpC, .reservedOpD, .reservedOpE, .reservedOpF]

/-- R220: the seven op codes that no operation has, one by one. -/
theorem reserved_op_codes : ∀ op : BitVec 4, op = 0x0#4 ∨ 0xA#4 ≤ op →
    op = 0x0#4 ∨ op = 0xA#4 ∨ op = 0xB#4 ∨ op = 0xC#4 ∨ op = 0xD#4 ∨ op = 0xE#4 ∨ op = 0xF#4 := by
  decide

theorem decodeHost_reserved (h : hostOp w = 0x0#4 ∨ 0xA#4 ≤ hostOp w) : decodeHost w ∈ reservedInstrs := by
  rcases reserved_op_codes (hostOp w) h with h | h | h | h | h | h | h <;> simp [decodeHost, h, reservedInstrs]

end HostDecoding

/-! ### What each operation does to the state, and the status it returns -/

section HostMeanings

variable (s : State) (d : Dlci)

theorem exec_sendCmd (cr : Bool) (c : Byte) :
    exec (.sendCmd d cr c) s = .next (s.startSend .hi [encodeCmd d cr c] { status := .ok, data := .none }) := rfl

theorem exec_cfgChan_refused (m : Mode) {mtu : Mtu} (h : s.cfg.scratchCap < mtu.toNat) :
    exec (.cfgChan d m mtu) s = .next (s.hostError .mtuRange) := if_pos h

theorem exec_cfgChan_accepted (m : Mode) {mtu : Mtu} (h : mtu.toNat ≤ s.cfg.scratchCap) :
    exec (.cfgChan d m mtu) s = .next ((s.setFormat d m mtu).hostOk .none) := if_neg (Nat.not_lt.mpr h)

theorem exec_bindQueue (bind : Bool) (h : Handle) :
    exec (.bindQueue d bind h) s = .next ((s.setQueue d (if bind then some h else none)).hostOk .none) := rfl

theorem exec_setConn (v : Bool) : exec (.setConn d v) s = .next ((s.setConnected d v).hostOk .none) := rfl

theorem exec_readChan : exec (.readChan d) s = .next (s.hostOk (.chan (s.chan d))) := rfl

theorem exec_readStatus : exec .readStatus s = .next (s.hostOk (.status
    { uaCount := s.uaCount, dmCount := s.dmCount, rxDropCount := s.rxDropCount, disc0Pending := s.disc0Pending,
      muxEn := s.muxEn, rxState := s.rx.rxState })) := rfl

theorem exec_ackDisc0 : exec .ackDisc0 s = .next (({ s with disc0Pending := false }).hostOk .none) := rfl

/-- R223: only a change of `mux_en` from 0 to 1 restarts the decoder. -/
theorem exec_setMuxEn (en : Bool) : exec (.setMuxEn en) s = .next (({ s with
    muxEn := en
    rx := if en = true ∧ s.muxEn = false then { s.rx with rxState := .waitingAddress } else s.rx }).hostOk .none) := by
  show execSetMuxEn en s = _
  unfold execSetMuxEn
  by_cases switched : en = true ∧ s.muxEn = false
  · simp [switched, State.setRxState]
  · have same : (en && !s.muxEn) = false := by simpa using switched
    simp [switched, same]

theorem exec_reserved {i : Instr} (hi : i ∈ reservedInstrs) : exec i s = .next (s.hostError .badOp) := by
  simp only [reservedInstrs, List.mem_cons, List.not_mem_nil, or_false] at hi
  rcases hi with rfl | rfl | rfl | rfl | rfl | rfl | rfl <;> rfl

end HostMeanings

/-! ### The operations' statements -/

/-- Settles O38: the one frame of the send is offered, and accepted as its last or refused. -/
theorem sendCmdOffersToTxHi : Obligations.SendCmdOffersToTxHi := by
  refine ⟨fun w => decodeHost_sendCmd, fun d cr c s => ⟨fun ha => ?accepted, fun ha => ?refused⟩⟩
  case accepted => exact (exec_sendCmd s d cr c).trans (congrArg Host.Outcome.next (State.startSend_accepted ha))
  case refused => exact (exec_sendCmd s d cr c).trans (congrArg Host.Outcome.next (State.startSend_refused ha))

/-- Settles O43, by the two sides of R214's comparison of the MTU with SCRATCH_CAP. -/
theorem cfgChanSetsModeAndMtu : Obligations.CfgChanSetsModeAndMtu :=
  ⟨fun _ => decodeHost_cfgChan, fun d m _ s => ⟨exec_cfgChan_refused s d m, exec_cfgChan_accepted s d m⟩⟩

/-- Settles O44: the write of `State.setQueue` is that of the entry's queue alone. -/
theorem bindQueueSetsTheQueue : Obligations.BindQueueSetsTheQueue :=
  ⟨fun _ => decodeHost_bindQueue, fun d bind h s => exec_bindQueue s d bind h⟩

/-- Settles O45: the write of `State.setConnected` is that of the entry's flag alone. -/
theorem setConnSetsTheFlag : Obligations.SetConnSetsTheFlag :=
  ⟨fun _ => decodeHost_setConn, fun d v s => exec_setConn s d v⟩

/-- Settles O47: both reads answer from the state of the step and leave it as it is. -/
theorem readsReturnTheRecord : Obligations.ReadsReturnTheRecord :=
  ⟨fun _ => decodeHost_readChan, fun _ => decodeHost_readStatus, fun d s => exec_readChan s d, exec_readStatus⟩

/-- Settles O48, by the two equations of ACK_DISC0, its decoding and its one write. -/
theorem ackDisc0ClearsTheSignal : Obligations.AckDisc0ClearsTheSignal :=
  ⟨fun _ => decodeHost_ackDisc0, exec_ackDisc0⟩

/-- Settles O49, by `exec_setMuxEn`: a change from 0 to 1 is the one case that touches the decoder. -/
theorem setMuxEnSwitchesTheInput : Obligations.SetMuxEnSwitchesTheInput :=
  ⟨fun _ => decodeHost_setMuxEn, fun en s => exec_setMuxEn s en⟩

/-- Settles O50: each of the seven op codes decodes to one of `reservedInstrs`, and these all act alike. -/
theorem reservedOpCodesAnswerBadOp : Obligations.ReservedOpCodesAnswerBadOp :=
  ⟨fun _ => decodeHost_reserved, fun _ s => exec_reserved s⟩

end Sys2Proof.Machine

/-! ## What a host operation returns (44_host_ops.md R210; 60_exceptions.md R245) -/

namespace Sys2Proof.Machine

/-- What the step of a host operation returns: an error and nothing but the error, no status yet, or the status OK. -/
inductive HostReturn (s t : State) : Prop where
  | error (code : Status) (ht : t = s.hostError code)
  | pending (hr : t.out.replies = s.out.replies)
  | ok (data : HostData) (hr : t.out.replies = s.out.replies ++ [{ status := .ok, data := data }])

/-- R210, R213: a send that returns on success returns nothing in the step of its first offer, or OK. -/
theorem startSend_return (s : State) (q : TxQueue) (f : Frame) (fs : List Frame) (data : HostData) :
    HostReturn s (s.startSend q (f :: fs) { status := .ok, data := data }) := by
  cases ha : s.env.answers.txAccept with
  | false => exact .pending (by rw [State.startSend_refused ha])
  | true =>
    rw [State.startSend_accepted ha]
    cases fs with
    | nil => exact .ok data rfl
    | cons g fs => exact .pending rfl

/-- R210, R245: an operation that does not fail returns no other status than OK. -/
theorem exec_host_return (i : Instr) (s : State) (hi : Safety.isHostInstr i = true) :
    ∃ t, exec i s = .next t ∧ HostReturn s t := by
  cases i with
  | ui | uih | sabm | ua | dm | disc | other => cases hi
  | sendCmd d cr c => exact ⟨_, exec_sendCmd s d cr c, startSend_return ..⟩
  | sendData d cr =>
    by_cases hm : (s.chan d).mtu = 0
    · exact ⟨_, exec_sendData_notReady cr hm, .error _ rfl⟩
    · obtain ⟨f, fs, frames⟩ := exists_first_frame cr hm s.env.payload
      exact ⟨_, exec_sendData_start cr hm, frames ▸ startSend_return ..⟩
  | cfgChan d m mtu =>
    rcases Nat.lt_or_ge s.cfg.scratchCap mtu.toNat with hm | hm
    · exact ⟨_, exec_cfgChan_refused s d m hm, .error _ rfl⟩
    · exact ⟨_, exec_cfgChan_accepted s d m hm, .ok _ rfl⟩
  | bindQueue d bind h => exact ⟨_, exec_bindQueue s d bind h, .ok _ rfl⟩
  | setConn d v => exact ⟨_, exec_setConn s d v, .ok _ rfl⟩
  | readChan d => exact ⟨_, exec_readChan s d, .ok _ rfl⟩
  | readStatus => exact ⟨_, exec_readStatus s, .ok _ rfl⟩
  | ackDisc0 => exact ⟨_, exec_ackDisc0 s, .ok _ rfl⟩
  | setMuxEn en => exact ⟨_, exec_setMuxEn s en, .ok _ rfl⟩
  | reservedOp0 | reservedOpA | reservedOpB | reservedOpC | reservedOpD | reservedOpE | reservedOpF =>
    exact ⟨_, exec_reserved s (by simp [reservedInstrs]), .error _ rfl⟩

/-- Settles O51, by `exec_host_return`: of the three returns only the error, which does nothing else, is a status that is
not OK. -/
theorem hostErrorsHaveNoEffect : Obligations.HostErrorsHaveNoEffect := by
  intro i s t r hi h hreply hstatus
  obtain ⟨u, hu, returned⟩ := exec_host_return i s hi
  cases hu.symm.trans h
  cases returned with
  | error code ht =>
    subst ht
    obtain rfl : { status := code, data := .none } = r := by simpa using hreply
    rfl
  | pending hr => simp [hr] at hreply
  | ok data hr =>
    obtain rfl : { status := .ok, data := data } = r := by simpa [hr] using hreply
    exact absurd rfl hstatus

end Sys2Proof.Machine

/-! ## Progress and idle turns (60_exceptions.md R240, R255) -/

namespace Sys2Proof.Machine

open Sys2Proof.Safety

section StepAnswers

variable {s : State} {a : Answers} {rest : List Turn}

/-- R255: with nothing scheduled a step is idle. -/
theorem step_unscheduled (ht : s.env.turns = []) : step s = .next s := by
  simp [step, ht]

/-- R255, log 14: a host turn with nothing held and nothing to issue only takes itself off the schedule. -/
theorem step_host_idle (ht : s.env.turns = .host a :: rest) (hh : s.held = none) (ho : s.env.hostOps = []) :
    step s = .next (s.beginTurn rest a) := by
  simp [step_host s a rest ht, hostStep, hh, ho]

/-- R271: the reset input is a step of its own. -/
theorem step_reset (ht : s.env.turns = .reset :: rest) :
    step s = .next (s.beginTurn rest s.env.answers).resetBlock := by
  simp [step, ht]

/-- R240: no host turn stops the block, by what holds the port and what is there to issue. -/
theorem step_host_answers (ht : s.env.turns = .host a :: rest) : ∃ t, step s = .next t := by
  cases hh : s.held with
  | some op => exact ⟨_, step_held ht hh⟩
  | none =>
    cases ho : s.env.hostOps with
    | nil => exact ⟨_, step_host_idle ht hh ho⟩
    | cons op ops =>
      rw [step_host s a rest ht, hostStep_issue (s.beginTurn rest a) op ops hh ho]
      obtain ⟨t, h, _⟩ := exec_host_effect (decodeHost op.word) _ (isHostInstr_decodeHost op.word)
      exact ⟨t, h⟩

end StepAnswers

/-- Settles O17, turn by turn: only an RX step needs the invariant, whose clauses about the decoder context exclude both of
the model's stops (`rxStep_answers`). -/
theorem noStepEverStops : Obligations.NoStepEverStops := by
  intro s hs
  obtain ⟨_, _, decoder, _⟩ := (inv_iff s).mp hs
  match ht : s.env.turns with
  | [] => exact ⟨s, step_unscheduled ht⟩
  | .rx b a :: rest => exact step_rx s b a rest ht ▸ rxStep_answers (s := s.beginTurn rest a) b decoder
  | .host a :: rest => exact step_host_answers ht
  | .reset :: rest => exact ⟨_, step_reset ht⟩

/-- Settles O14, by the equations of the two idle steps. -/
theorem idleKeepsTheState : Obligations.IdleKeepsTheState :=
  ⟨fun _ ht => step_unscheduled ht, fun _ _ _ ht hh ho => step_host_idle ht hh ho⟩

end Sys2Proof.Machine

/-! ## The events of an RX step (60_exceptions.md R242-R244) -/

namespace Sys2Proof.Machine

open Sys2Proof.Safety

/-! ### The event R243 selects, by what closes the frame -/

/-- The event of a manager reply: its loss (R196, R242). -/
def replyEvent (s : State) : Option Event :=
  if s.env.answers.txHiOk = true then none else some .replyDrop

/-- The event of the closing flag of a valid command frame (R243). -/
def managerEvent (s : State) : Option Event :=
  if ftype s.rx.ctrl = typeSABM ∨ ftype s.rx.ctrl = typeDISC then replyEvent s
  else if ftype s.rx.ctrl = typeUA ∨ ftype s.rx.ctrl = typeDM then none
  else some .otherCmd

/-- The event of the closing flag of a valid data frame (R243). -/
def deliveryEvent (s : State) : Option Event :=
  if s.rx.q = none then some .discard
  else if addrDlci s.rx.addr ≠ 0 ∧ (s.chan (addrDlci s.rx.addr)).connected = false then some .unconnected
  else if s.env.answers.qFree < s.rx.size.toNat then some .qFull
  else none

/-- `t`'s trace is `s`'s with at most the event `e` after it (R241). -/
def Records (s t : State) (e : Option Event) : Prop := t.out.events = s.out.events ++ e.toList

section RxEvents

variable {s t : State} {b : Byte}

/-- R242: only a byte that arrives in FLAG_EXPECTED, with multiplexing on, has an event. -/
theorem expectedEvent_quiet (h : ¬(s.muxEn = true ∧ s.rx.rxState = .flagExpected)) : expectedEvent b s = none :=
  if_neg h

/-- R243: E_FRAMING comes first, E_FCS second. -/
theorem expectedEvent_bad (hm : s.muxEn = true) (hr : s.rx.rxState = .flagExpected) (h : b ≠ FLAG ∨ s.rx.valid = false) :
    expectedEvent b s = some (if b ≠ FLAG then .framing else .fcs) := by
  by_cases hb : b = FLAG
  · have hv : s.rx.valid = false := h.resolve_left (not_not_intro hb)
    simp [expectedEvent, hm, hr, hb, hv]
  · simp [expectedEvent, hm, hr, hb]

/-- R243: the other events belong to a valid frame closed by a flag, by its kind. -/
theorem expectedEvent_close (hm : s.muxEn = true) (hr : s.rx.rxState = .flagExpected) (hv : s.rx.valid = true) :
    expectedEvent FLAG s = if isDataCtrl s.rx.ctrl = true then deliveryEvent s else managerEvent s := by
  cases hq : s.rx.q <;> simp [expectedEvent, deliveryEvent, managerEvent, replyEvent, hm, hr, hv, hq]

/-! ### What is recorded -/

theorem logEvent_records (s : State) (e : Event) : Records s (s.logEvent e) (some e) := rfl

/-- A trace that has not changed has recorded nothing. -/
theorem Records.of_events_eq (h : t.out.events = s.out.events) : Records s t none := by
  simpa [Records] using h

theorem OnlyDecoder.records (h : OnlyDecoder s t) : Records s t none := .of_events_eq (by rw [h])

theorem replyFrame_records (s : State) (d : Dlci) (cr : Bool) (c2 : Byte) :
    Records s (s.replyFrame d cr c2) (replyEvent s) := by
  rcases s.replyFrame_cases d cr c2 with ⟨hok, h⟩ | ⟨hfull, h⟩ <;> rw [h]
  · simp [Records, replyEvent, hok]
  · simp [Records, replyEvent, hfull, State.logEvent]

/-- R190: DISC records what its reply does. -/
theorem discAction_records (s : State) (dc : BitVec 7) : Records s (discAction dc s) (replyEvent s) := by
  have answer : Records s (discAnswer dc s) (replyEvent s) := by
    rw [discAnswer_eq]
    exact replyFrame_records (s.setConnected (dcDlci dc) false) ..
  rw [discAction_eq]
  split <;> exact answer

/-- R243: a command frame's event is the one of its type, the last for a type with no row of its own. -/
theorem managerAction_records (hc : isDataCtrl s.rx.ctrl = false) (dc : BitVec 7) :
    Records s (managerAction s.rx.ctrl dc s) (managerEvent s) := by
  rcases decodeCtrl_cases s.rx.ctrl with ⟨_, _, hdata⟩ | ⟨_, _, hdata⟩ | ⟨hd, _, ht, _⟩ | ⟨hd, _, ht, _⟩ | ⟨hd, _, ht, _⟩ |
    ⟨hd, _, ht, _⟩ | ⟨hd, _, _, hsabm, hua, hdm, hdisc⟩
  · simp [hc] at hdata
  · simp [hc] at hdata
  · rw [managerEvent, if_pos (.inl ht), managerAction, hd]
    exact replyFrame_records (s.setConnected (dcDlci dc) true) ..
  · rw [managerEvent, ht, managerAction, hd]
    exact .of_events_eq rfl
  · rw [managerEvent, ht, managerAction, hd]
    exact .of_events_eq rfl
  · rw [managerEvent, if_pos (.inr ht), managerAction, hd]
    exact discAction_records s dc
  · rw [managerEvent, if_neg (by simp [hsabm, hdisc]), if_neg (by simp [hua, hdm]), managerAction, hd]
    exact logEvent_records s .otherCmd

/-- R243: a data frame's event is the first that applies of E_DISCARD, E_UNCONNECTED and E_QFULL. -/
theorem deliver_records (h : s.deliver = .next t) : Records s t (deliveryEvent s) := by
  rcases s.deliver_cases t h with ⟨hq, rfl⟩ | ⟨q, hq, hd, rfl⟩ | ⟨q, hq, hd, _, rfl⟩
  · rw [deliveryEvent, if_pos hq]
    exact logEvent_records (s.setRxState .waitingAddress) .discard
  · have unconnected : addrDlci s.rx.addr ≠ 0 ∧ (s.chan (addrDlci s.rx.addr)).connected = false := by
      simpa [deliverable] using hd
    rw [deliveryEvent, if_neg (by simp [hq]), if_pos unconnected]
    exact logEvent_records (s.setRxState .waitingAddress) .unconnected
  · have addressed : ¬(addrDlci s.rx.addr ≠ 0 ∧ (s.chan (addrDlci s.rx.addr)).connected = false) := by
      rw [← Bool.not_eq_true, ← not_or, not_not]
      exact (deliverable_iff _ _).mp hd
    have event : deliveryEvent s = if s.env.answers.qFree < s.rx.size.toNat then some .qFull else none :=
      (if_neg (by simp [hq])).trans (if_neg addressed)
    simp only [event, Records, inf_lt_left, not_le]
    split <;> simp

/-- R243: whatever byte arrives in FLAG_EXPECTED, the event it selects is recorded. -/
theorem rxFlag_records (hm : s.muxEn = true) (hr : s.rx.rxState = .flagExpected) (h : rxFlag b s = .next t) :
    Records s t (expectedEvent b s) := by
  by_cases hbad : b ≠ FLAG ∨ s.rx.valid = false
  · rw [rxFlag_bad hbad] at h
    cases h
    rw [expectedEvent_bad hm hr hbad]
    exact logEvent_records (s.setRxState .waitingAddress) _
  · obtain ⟨rfl, hv⟩ : b = FLAG ∧ s.rx.valid = true := by simpa using hbad
    rw [rxFlag_valid s hv, exec_decodeCtrl_close s _ (by simp [hr])] at h
    rw [expectedEvent_close hm hr hv]
    cases hc : isDataCtrl s.rx.ctrl with
    | true =>
      rw [hc, if_pos rfl] at h
      exact deliver_records h
    | false =>
      rw [hc, if_neg Bool.false_ne_true] at h
      cases h
      exact managerAction_records hc _

/-- R242: with multiplexing off, or outside FLAG_EXPECTED, nothing is recorded. -/
theorem rxStep_records_quiet (hquiet : ¬(s.muxEn = true ∧ s.rx.rxState = .flagExpected)) (h : rxStep b s = .next t) :
    Records s t none := by
  rcases rxStep_cases s b t h with ⟨_, rfl⟩ | ⟨hm, ⟨_, rfl⟩ | ⟨hr, h⟩ | ⟨_, rfl⟩ | ⟨_, rfl⟩ | ⟨_, h⟩ | ⟨_, rfl⟩ | ⟨hr, _⟩⟩
  · exact .of_events_eq rfl
  · exact (rxAddress_onlyDecoder s b).records
  · rw [exec_decodeCtrl_cmd s b hr] at h
    cases h
    exact (captureControl_onlyDecoder s b).records
  · exact (rxLen_onlyDecoder s b).records
  · exact (rxLenExt_onlyDecoder s b).records
  · exact (rxData_onlyDecoder s b h).records
  · exact (rxFcs_onlyDecoder s b).records
  · exact absurd ⟨hm, hr⟩ hquiet

end RxEvents

/-- Settles O55: an event is selected only in FLAG_EXPECTED, where every byte records the one selected (`rxFlag_records`) and
ends the frame (`rxFlag_rx`). -/
theorem eventsFollowThePrecedence : Obligations.EventsFollowThePrecedence := by
  intro s t b a rest ht h
  rw [step_rx s b a rest ht] at h
  by_cases closing : (s.beginTurn rest a).muxEn = true ∧ (s.beginTurn rest a).rx.rxState = .flagExpected
  · obtain ⟨hm, hr⟩ := closing
    rw [rxStep_flagExpected _ b hm hr] at h
    exact ⟨rxFlag_records hm hr h, fun _ => congrArg Decoder.rxState (rxFlag_rx hr h)⟩
  · rw [expectedEvent_quiet closing]
    exact ⟨rxStep_records_quiet (s := s.beginTurn rest a) closing h, fun hnone => absurd rfl hnone⟩

end Sys2Proof.Machine

/-! ## The reset input, and the decoder fields it leaves unspecified (70_reset_and_hazards.md R270, R271) -/

namespace Sys2Proof.Safety

open Sys2Proof.Machine

/-- A block reset in a turn keeps its parameter, what it has put out, and of the environment all but the turn just taken. -/
theorem resetBlock_beginTurn (s : State) (rest : List Turn) :
    (s.beginTurn rest s.env.answers).resetBlock =
      { State.reset with cfg := s.cfg, env := { s.env with turns := rest }, out := s.out } := rfl

/-- Settles O13: the reset turn ends in `resetBlock` (`step_reset`), and that is the state R271 describes. -/
theorem resetInputKeepsTheEnvironment : Obligations.ResetInputKeepsTheEnvironment := by
  intro s rest ht
  rw [step_reset ht, resetBlock_beginTurn]

/-- In WAITING_ADDRESS every other decoder field is still to be written (R161, R163, R164, R168), so its value may differ. -/
theorem Agree.of_waitingAddress {s : State} {rx : Decoder} (hs : s.rx.rxState = .waitingAddress)
    (hrx : rx.rxState = .waitingAddress) (hsBuf : Memory.wf s.rx.buf) (hrxBuf : Memory.wf rx.buf) :
    Agree { s with rx := rx } s :=
  { Agree.refl hsBuf with
    rxState := hrx.trans hs.symm
    header := by simp [hrx]
    fcs := by simp [hrx]
    ctrl := by simp [hrx]
    size := by simp [hrx]
    cnt := by simp [hrx]
    bufForm := ⟨hrxBuf, hsBuf⟩
    bufSoFar := by simp [hrx]
    bufAll := by simp [hrx] }

/-- Settles O19: R270 puts the decoder in WAITING_ADDRESS, where `Agree.of_waitingAddress` compares no other field. -/
theorem anyResetValuesAgree : Obligations.AnyResetValuesAgree := by
  intro rx env hrx hbuf
  exact Agree.of_waitingAddress (s := { State.reset with env := env }) rfl hrx Memory.reset_wf hbuf

end Sys2Proof.Safety
